-- ==== Sys2Proof/Word.lean ====
section
/-! DEFINITION. The fixed widths of ZFC-1 (spec 00_scope.md R7, R8): bytes, the 16-bit `cmd`, `len` and
`REVERT_DELAY`, and the 32-bit registers of the register view. Every value is unsigned (R8). -/

namespace Sys2Proof

/-- A byte, 0x00..0xFF (R8); also the checksum width `CHK_W` (R7). -/
abbrev Byte := BitVec 8

/-- The width of command_id (`CMD_W`), of length (`LEN_W`) and of the timer (`DELAY_W`), R7. -/
abbrev Word16 := BitVec 16

/-- The width of a register of the register view (10_state.md R34, whose widest field is [31:0]). -/
abbrev Word32 := BitVec 32

end Sys2Proof
end

