-- ==== Sys2Proof/Machine/Codes.lean ====
section
/-! DEFINITION. The numeric codes of the spec: the wire markers (30_encoding.md R71, R72), the property codes (R91)
and the value codes (R92). -/

namespace Sys2Proof

/-- The start marker of a frame (R71). -/
def startMarker : Byte := 0x01
/-- The escape marker (R72). -/
def escMarker : Byte := 0x02
/-- The end marker of a frame (R71). -/
def endMarker : Byte := 0x03
/-- The mask an escaped byte is XORed with, and the first byte value that is not escaped (R72). -/
def escMask : Byte := 0x10

/-- Property codes (R91). Codes 0x06..0xFF are the frame interpreter's; ZFC-1 only compares codes. -/
def propState : Byte := 0x00
def propEvent : Byte := 0x01
def propTemperature : Byte := 0x02
def propHumidity : Byte := 0x03
def propPressure : Byte := 0x04
def propLastSeen : Byte := 0x05

/-- Value codes (R92). Code 0x00 and codes 0x06..0xFF are the frame interpreter's. -/
def valPresence : Byte := 0x01
def valOn : Byte := 0x02
def valOff : Byte := 0x03
def valClosed : Byte := 0x04
def valOpen : Byte := 0x05

end Sys2Proof
end

