-- ==== Sys2Proof/Config.lean ====
section
/-! DEFINITION. What an implementation of ZFC-1 fixes: the parameters of 00_scope.md R7, as plain data that the state
carries (the register view shows them, 10_state.md R34), and the model's free values, which have no body.
The parameters the spec marks OPEN are quantified over in every statement about all states; `Config.default` is only
the value the one reset state takes (log entry 1). -/

namespace Sys2Proof

/-- `MODE`, a 2-bit field (30_encoding.md R90). The value 3 is reserved: a configuration that holds it is refused before
any step (70_reset_and_hazards.md R231). -/
inductive Mode where
  | direct
  | toggle
  | momentary
  | reserved
deriving DecidableEq, Repr

/-- `SURPLUS_POLICY` (R7, 40_codec.md R109): what the decoder does with bytes beyond `length`. -/
inductive SurplusPolicy where
  | reject
  | ignore
deriving DecidableEq, Repr

/-- `CFG_INIT[k]` (R7, 10_state.md R28, R29). `revertDelay` is a natural number here, because R231 is what checks that it
fits in `DELAY_W` = 16 bits. -/
structure CfgInit where
  mode        : Mode
  inverted    : Bool
  revertDelay : Nat
  watchedProp : Byte
  initOn      : Bool := false
deriving DecidableEq, Repr

/-- The parameters of R7 that are not fixed by the spec. `NSW` is the length of `cfgInit`. The defaults of
`SURPLUS_POLICY` and `RENOTIFY` are R7's. `actSet` and `invActSet` list the members of `ACT_SET` and `INV_ACT_SET`. -/
structure Config where
  surplus   : SurplusPolicy := .reject
  bufCap    : Nat
  renotify  : Bool := true
  cfgInit   : List CfgInit
  actSet    : List Byte
  invActSet : List Byte
deriving DecidableEq, Repr

/-- `NSW`, the number of switch state machines (R7). -/
def Config.nsw (c : Config) : Nat := c.cfgInit.length

/-- The configuration of the reset state (DESIGN CHOICE, log entry 1): R7's defaults for `SURPLUS_POLICY` and `RENOTIFY`,
the smallest `BUF_CAP` that receives every legal frame (41_reassembler.md R140), the minimal activating sets, and the
"one instance" of 95_test_vectors.md, in direct mode, not inverted, watching `state`, with delay 0 and `INIT_ON` = 0. -/
def Config.default : Config where
  bufCap    := 131079
  cfgInit   := [{ mode := .direct, inverted := false, revertDelay := 0, watchedProp := propState }]
  actSet    := [valPresence, valOn]
  invActSet := [valClosed, valOff]

/-- FREE VALUE: which of several enabled revert timers is scheduled when no other agent has an operation waiting
(60_exceptions.md R214 leaves the order open). Applied to the state's counter `turn`; it has no body, so a claim holds
for every choice. Log entry 4. -/
opaque Config.timerChoice : Nat → Nat

/-- FREE VALUE: what RXBUF_LEN reads when `len(RXBUF)` does not fit its field [31:0] (10_state.md R34 states no value
there). Log entry 5. -/
opaque Config.rxbufLenOver : Nat → Word32

end Sys2Proof
end

