-- ==== Sys2Proof/Syntax.lean ====
section
/-! DEFINITION. The instructions: one constructor per row of spec/opcode_table.json. The eleven operations of the command
port (30_encoding.md R80), and the six byte classes of the wire port (R76), each of which is the arrival of that unit
from the transport (log entry 2). -/

namespace Sys2Proof

/-- One operation of one port. -/
inductive Instr where
  /-- ENC: encode and send a frame (40_codec.md R104). -/
  | enc (cmd : Word16) (payload : List Byte)
  /-- DEC: decode one span (40_codec.md R111). -/
  | dec (span : List Byte)
  /-- RXC: receive one chunk (41_reassembler.md R130). -/
  | rxc (chunk : List Byte)
  /-- BIND: the transport has become ready for writes (42_connection.md R150). -/
  | bind
  /-- CLOSE: the connection is closed (42_connection.md R152). -/
  | close
  /-- PEV: a property update for switch k (43_switch_fsm.md R162). -/
  | pev (k prop val : Byte)
  /-- TON: explicit turn-on of switch k (R166). -/
  | ton (k : Byte)
  /-- TOFF: explicit turn-off of switch k (R167). -/
  | toff (k : Byte)
  /-- TICK: one time unit has elapsed (R169). -/
  | tick
  /-- TEXP: the pending revert of switch k fires (R168). -/
  | texp (k : Byte)
  /-- RESET: return the block to its reset state (70_reset_and_hazards.md R230). -/
  | reset
  /-- WIRE_START: a start marker arrives (30_encoding.md R76; 41_reassembler.md R134). -/
  | wireStart
  /-- WIRE_ESC: an escape marker that begins no canonical escape pair arrives: alone (`none`: nothing or a marker follows),
  or with the non-canonical byte after it (R76 ESC and NONCANON-ESC). -/
  | wireEsc (next : Option Byte)
  /-- WIRE_END: an end marker arrives (41_reassembler.md R131, R132). -/
  | wireEnd
  /-- WIRE_ESCAPED_PAIR: a canonical escape pair arrives; `e` is its second byte, in 0x10..0x1F (30_encoding.md R72). -/
  | wireEscapedPair (e : Byte)
  /-- WIRE_LITERAL: a literal byte in 0x10..0xFF arrives (R76). -/
  | wireLiteral (b : Byte)
  /-- WIRE_RAW_LOW: a raw low byte, 0x00 or 0x04..0x0F, arrives (R76). -/
  | wireRawLow (b : Byte)
deriving DecidableEq, Repr

end Sys2Proof
end

