-- ==== Sys2Proof/WellFormed.lean ====
section
/-! DEFINITION. Which instructions a port can spell: the 16-bit count of ENC, DEC and RXC (30_encoding.md R81), and the
byte ranges of the wire classes (R76). `k < NSW` is not a matter of syntax: R82 refuses it when the operation runs. -/

namespace Sys2Proof

/-- The largest count a 16-bit `n` spells, `MAX_PAYLOAD` (00_scope.md R7). -/
def maxPayload : Nat := 65535

/-- A byte of the class ESCAPED, the second byte of a canonical escape pair (R76). -/
def isEscaped (b : Byte) : Bool := decide (0x10 ≤ b) && decide (b ≤ 0x1F)

/-- A byte that forms a NONCANON-ESC unit after an escape marker (R76): not ESCAPED, and no start or end marker, which
are never "after ESC". -/
def isNonCanon (b : Byte) : Bool := !isEscaped b && (b != startMarker) && (b != endMarker)

/-- The checks of the operands. -/
def wellFormed : Instr → Bool
  | .enc _ payload => decide (payload.length ≤ maxPayload)
  | .dec span => decide (span.length ≤ maxPayload)
  | .rxc chunk => decide (chunk.length ≤ maxPayload)
  | .bind => true
  | .close => true
  | .pev _ _ _ => true
  | .ton _ => true
  | .toff _ => true
  | .tick => true
  | .texp _ => true
  | .reset => true
  | .wireStart => true
  | .wireEsc none => true
  | .wireEsc (some b) => isNonCanon b
  | .wireEnd => true
  | .wireEscapedPair e => isEscaped e
  | .wireLiteral b => decide (0x10 ≤ b)
  | .wireRawLow b => decide (b < 0x10) && (b != startMarker) && (b != escMarker) && (b != endMarker)

end Sys2Proof
end

