-- ==== Sys2Proof/Decode.lean ====
section
/-! DEFINITION. The decoders of the two ports and the encoder. The command port takes a whole command word
(30_encoding.md R80 to R82); the wire port takes a byte stream and cuts off its first unit (R76). -/

namespace Sys2Proof

/-- Why a command word has no instruction (R82, 60_exceptions.md R207). -/
inductive DecodeError where
  /-- `ILLEGAL_OPCODE`: the opcode is none of the eleven of R80. -/
  | illegalOpcode
  /-- `BAD_LENGTH`: the word is shorter or longer than its opcode and its `n` give. -/
  | badLength
deriving DecidableEq, Repr

/-- The port an instruction belongs to: column "port" of spec/opcode_table.json. -/
inductive Port where
  | command
  | wire
deriving DecidableEq, Repr

/-- `BE16` (00_scope.md R9): most significant byte first. -/
def be16 (v : Word16) : List Byte := [v.extractLsb' 8 8, v.extractLsb' 0 8]

/-- `U16` (R9), which is also the operand assembly of R81: `(zext hi << 8) | zext lo`. -/
def u16 (hi lo : Byte) : Word16 := (hi.zeroExtend 16 <<< 8) ||| lo.zeroExtend 16

/-- The operands `n`, then n bytes (R80). -/
def counted (mk : List Byte → Instr) : List Byte → Except DecodeError Instr
  | n1 :: n0 :: body => if body.length = (u16 n1 n0).toNat then .ok (mk body) else .error .badLength
  | _ => .error .badLength

/-- No operand (R80). -/
def noOperand (i : Instr) : List Byte → Except DecodeError Instr
  | [] => .ok i
  | _ => .error .badLength

/-- The one operand `k` (R80). -/
def oneOperand (mk : Byte → Instr) : List Byte → Except DecodeError Instr
  | [k] => .ok (mk k)
  | _ => .error .badLength

/-- The operands `cmd`, `n`, then n bytes of ENC (R80). -/
def encOperands : List Byte → Except DecodeError Instr
  | c1 :: c0 :: rest => counted (.enc (u16 c1 c0)) rest
  | _ => .error .badLength

/-- The operands `k`, `prop`, `val` of PEV (R80). -/
def pevOperands : List Byte → Except DecodeError Instr
  | [k, prop, val] => .ok (.pev k prop val)
  | _ => .error .badLength

/-- The eleven opcodes (R80). -/
def opcodes : List Byte := [0x10, 0x11, 0x20, 0x30, 0x31, 0x40, 0x41, 0x42, 0x43, 0x44, 0xFF]

/-- The operation a command word spells (R80 to R82). An empty word is shorter than every total length (log entry 9). -/
def decodeCommand : List Byte → Except DecodeError Instr
  | [] => .error .badLength
  | op :: args =>
    if op = 0x10 then encOperands args
    else if op = 0x11 then counted .dec args
    else if op = 0x20 then counted .rxc args
    else if op = 0x30 then noOperand .bind args
    else if op = 0x31 then noOperand .close args
    else if op = 0x40 then pevOperands args
    else if op = 0x41 then oneOperand .ton args
    else if op = 0x42 then oneOperand .toff args
    else if op = 0x43 then noOperand .tick args
    else if op = 0x44 then oneOperand .texp args
    else if op = 0xFF then noOperand .reset args
    else .error .illegalOpcode

/-- The class of one wire byte that is not after an escape marker (R76). -/
def wireUnit (b : Byte) : Instr :=
  if b = startMarker then .wireStart
  else if b = escMarker then .wireEsc none
  else if b = endMarker then .wireEnd
  else if b < 0x10 then .wireRawLow b
  else .wireLiteral b

/-- The class of a byte directly after an escape marker (R76): ESCAPED or NONCANON-ESC. -/
def escUnit (c : Byte) : Instr := if isEscaped c then .wireEscapedPair c else .wireEsc (some c)

/-- Whether `b` and then `c` form one unit: an escape marker and a byte that is no marker of a frame (R76: a START or END
byte is never "after ESC"). -/
def escPair (b c : Byte) : Bool := (b == escMarker) && (c != startMarker) && (c != endMarker)

/-- The first unit of a received byte stream, with the rest; `none` on no bytes. -/
def decodeWire : List Byte → Option (Instr × List Byte)
  | [] => none
  | [b] => some (wireUnit b, [])
  | b :: c :: rest => if escPair b c then some (escUnit c, rest) else some (wireUnit b, c :: rest)

/-- All units of a received byte stream, in order (R76). -/
def wireUnits : List Byte → List Instr
  | [] => []
  | [b] => [wireUnit b]
  | b :: c :: rest => if escPair b c then escUnit c :: wireUnits rest else wireUnit b :: wireUnits (c :: rest)

/-- The 16-bit count operand of a byte sequence (R80). -/
def countBytes (l : List Byte) : List Byte := be16 (BitVec.ofNat 16 l.length)

/-- The bytes of an instruction: the command word of R80, or the wire bytes of the unit (R76). -/
def encode : Instr → List Byte
  | .enc cmd payload => 0x10 :: (be16 cmd ++ countBytes payload ++ payload)
  | .dec span => 0x11 :: (countBytes span ++ span)
  | .rxc chunk => 0x20 :: (countBytes chunk ++ chunk)
  | .bind => [0x30]
  | .close => [0x31]
  | .pev k prop val => [0x40, k, prop, val]
  | .ton k => [0x41, k]
  | .toff k => [0x42, k]
  | .tick => [0x43]
  | .texp k => [0x44, k]
  | .reset => [0xFF]
  | .wireStart => [startMarker]
  | .wireEsc none => [escMarker]
  | .wireEsc (some b) => [escMarker, b]
  | .wireEnd => [endMarker]
  | .wireEscapedPair e => [escMarker, e]
  | .wireLiteral b => [b]
  | .wireRawLow b => [b]

/-- The port of each instruction (spec/opcode_table.json, column "port"). -/
def portOf : Instr → Port
  | .enc _ _ => .command
  | .dec _ => .command
  | .rxc _ => .command
  | .bind => .command
  | .close => .command
  | .pev _ _ _ => .command
  | .ton _ => .command
  | .toff _ => .command
  | .tick => .command
  | .texp _ => .command
  | .reset => .command
  | .wireStart => .wire
  | .wireEsc _ => .wire
  | .wireEnd => .wire
  | .wireEscapedPair _ => .wire
  | .wireLiteral _ => .wire
  | .wireRawLow _ => .wire

/-- The bytes of the opcode table's number w, of nbits bits. The only row of two bytes, WIRE_ESCAPED_PAIR, is numbered by
the table with its first byte in bits 15..8 (0x0210, mask 0xFFF0); every other number has its first byte in bits 7..0
(log entry 10). -/
def tableBytes (nbits w : Nat) : List Byte :=
  if nbits = 16 ∧ w / 16 = 0x21 then [BitVec.ofNat 8 (w / 256), BitVec.ofNat 8 w]
  else (List.range (max 1 ((nbits + 7) / 8))).map (fun i => BitVec.ofNat 8 (w / 256 ^ i))

/-- The list with zeros after it, up to len bytes. -/
def zeroPad (len : Nat) (l : List Byte) : List Byte := l ++ List.replicate (len - l.length) 0

/-- The total length R80 gives for a command word that begins so; bytes that are not there count as zero. -/
def commandLength (l : List Byte) : Nat :=
  if l.headD 0 = 0x10 then 5 + (u16 (l.getD 3 0) (l.getD 4 0)).toNat
  else if l.headD 0 = 0x11 ∨ l.headD 0 = 0x20 then 3 + (u16 (l.getD 1 0) (l.getD 2 0)).toNat
  else if l.headD 0 = 0x40 then 4
  else if l.headD 0 = 0x41 ∨ l.headD 0 = 0x42 ∨ l.headD 0 = 0x44 then 2
  else 1

/-- The port and the whole bytes of the instruction of the opcode table whose bits are w: a number whose first byte is one
of the eleven opcodes is a command word, zeros filling the operands; any other is a unit of the wire. -/
def tableInput (nbits w : Nat) : Port × List Byte :=
  let bytes := tableBytes nbits w
  if bytes.headD 0 ∈ opcodes then (.command, zeroPad (commandLength bytes) bytes) else (.wire, bytes)

/-- The instruction the decoders read from the opcode table's number w. -/
def decodeTableWord (nbits w : Nat) : Option Instr :=
  match tableInput nbits w with
  | (.command, bytes) => (decodeCommand bytes).toOption
  | (.wire, bytes) => (decodeWire bytes).map Prod.fst

end Sys2Proof
end

