-- ==== Sys2Proof/Machine/State.lean ====
section
/-! DEFINITION. The state of ZFC-1 (10_state.md), as plain data, with the inputs that wait at its ports; the reasons a
step can stop; and the state after reset. ZFC-1 has no addressed memory, no register file and no program counter
(R21, R22, 20_memory.md R50). -/

namespace Sys2Proof.Machine

/-- `CONN` (10_state.md R24): UNBOUND = 0, OPEN = 1, CLOSED = 2. The value 3 is never held, so it is no constructor. -/
inductive Conn where
  | unbound
  | opened
  | closed
deriving DecidableEq, Repr

/-- A logged error with the info of 60_exceptions.md R200. -/
inductive Err where
  /-- `CHECKSUM_ERROR(cmd, n, chk, calc)`, R201. -/
  | checksum (cmd n : Word16) (chk computed : Byte)
  /-- `TRUNCATED_FRAME_ERROR(HEADER, have)`, R202. -/
  | truncatedHeader (got : Nat)
  /-- `TRUNCATED_FRAME_ERROR(PAYLOAD, cmd, n, have)`, R202. -/
  | truncatedPayload (cmd n : Word16) (got : Nat)
  /-- `OVERLONG_FRAME_ERROR(cmd, n, have)`, R203. -/
  | overlong (cmd n : Word16) (got : Nat)
  /-- `TRANSPORT_UNAVAILABLE_ERROR(cmd, n)`, R204. -/
  | transportUnavailable (cmd n : Word16)
  /-- `FRAMING_OVERFLOW_ERROR(BUF_CAP)`, R205. -/
  | framingOverflow (cap : Nat)
deriving DecidableEq, Repr

/-- An event of `EV` (10_state.md R27). -/
inductive Event where
  /-- `FRAME(cmd, len, chk, payload)`: a valid frame delivered upward. -/
  | frame (cmd len : Word16) (chk : Byte) (payload : List Byte)
  /-- `ERR(code, info)`: a logged error; its code is `errCode`. -/
  | err (e : Err)
  /-- `NOTIFY(k, on)`: a state notification of switch instance k. -/
  | notify (k : Byte) (on : Bool)
deriving DecidableEq, Repr

/-- The reasons for which an operation is refused, in the sense of 00_scope.md R10: the mark `REFUSED` is set and the run
goes on (60_exceptions.md R207). `BAD_CONFIG`, for which no run exists, is `Refusal.badConfig`. -/
inductive RefuseReason where
  | illegalOpcode
  | badLength
  | badInstance
  | texpNotEnabled
  | badRegister
  | badSendSyntax
  | undefinedAdmin
deriving DecidableEq, Repr

/-- The agents that issue operations (20_memory.md R58). -/
inductive Agent where
  | host
  | transport
  | propsrc
  | timebase
  | timer (k : Byte)
deriving DecidableEq, Repr

/-- One thing an agent hands to the block. -/
inductive Input where
  /-- A command word at the command port (30_encoding.md R80). -/
  | command (a : Agent) (word : List Byte)
  /-- Bytes arriving on the wire from TRANSPORT, taken one unit a step (R76). -/
  | wire (bytes : List Byte)
  /-- The pseudo-operation SEND of HOST, with its two strings (R94); also "raw command" (R95). -/
  | send (cmd payload : List Char)
  /-- The administrative operation "permit join" (R95). -/
  | permitJoin
  /-- The administrative operation "initialize network" (R95). -/
  | initNetwork
  /-- The observer reads a register of the register view (10_state.md R34). -/
  | readRegister (num : Nat)
deriving DecidableEq, Repr

/-- The configuration and state of one switch instance (10_state.md R28 to R33). -/
structure Switch where
  mode         : Mode
  inverted     : Bool
  revertDelay  : Word16
  watchedProp  : Byte
  initOn       : Bool
  on           : Bool
  tmrArmed     : Bool
  tmrRemain    : Word16
  trackedValid : Bool
  trackedValue : Byte
deriving DecidableEq, Repr

/-- The state of the block (10_state.md), with the model's own `refusedWhy`, `pending` and `turn`. -/
structure State where
  /-- The parameters (00_scope.md R7); no operation writes them (R28). -/
  cfg        : Config
  /-- `CONN`, R24. -/
  conn       : Conn
  /-- `RXBUF`, R25. -/
  rxbuf      : List Byte
  /-- `TXSTREAM`, R26. -/
  txstream   : List Byte
  /-- `EV`, R27. -/
  ev         : List Event
  /-- The switch instances 0 .. NSW-1, R28 to R33. -/
  sw         : List Switch
  /-- `REFUSED`, R36. -/
  refused    : Bool
  /-- The name of the latest refusal: the model's own record (log entry 6). -/
  refusedWhy : Option RefuseReason
  /-- What the agents hand to the block, in the order in which it is taken: the model's own (log entry 3). -/
  pending    : List Input
  /-- The counter the free choice of a timer is applied to: the model's own (log entry 4). -/
  turn       : Nat
deriving DecidableEq, Repr

/-- The reasons a step stops with a fault: none. ZFC-1 has no traps (60_exceptions.md R208), and no behaviour of it is
stuck (93_implementation_defined.md section 1). -/
inductive Fault
deriving DecidableEq, Repr

/-- The reasons a step has no meaning. These end a run; the spec's own refusals, after which the run goes on, are
`RefuseReason`. -/
inductive Refusal where
  /-- Raised by `exec` alone, for an instruction without a meaning in the model; no arm raises it. Safe. -/
  | notModelled (mnemonic : String)
  /-- `BAD_CONFIG`: raised by `step` on an ill-formed configuration, and by PEV on an instance in the reserved mode; the
  spec says that no run exists then (70_reset_and_hazards.md R231). Safe. -/
  | badConfig
  /-- Raised by `step` when an agent issues an operation that 20_memory.md R58 does not assign to it; the spec gives such
  an action no move (70_reset_and_hazards.md R246). Safe. -/
  | notAssigned
deriving DecidableEq, Repr

/-- An instance as RESET leaves it (70_reset_and_hazards.md R230, 10_state.md R39). R231 has checked that the delay fits. -/
def Switch.ofInit (c : CfgInit) : Switch where
  mode         := c.mode
  inverted     := c.inverted
  revertDelay  := BitVec.ofNat 16 c.revertDelay
  watchedProp  := c.watchedProp
  initOn       := c.initOn
  on           := c.initOn
  tmrArmed     := false
  tmrRemain    := 0
  trackedValid := false
  trackedValue := 0

/-- The state in which every run of a block with the parameters c starts (70_reset_and_hazards.md R232). -/
def State.powerOn (c : Config) : State where
  cfg        := c
  conn       := .unbound
  rxbuf      := []
  txstream   := []
  ev         := []
  sw         := c.cfgInit.map Switch.ofInit
  refused    := false
  refusedWhy := none
  pending    := []
  turn       := 0

/-- The machine right after its first reset, with the parameters of `Config.default` (log entry 1). -/
def State.reset : State := State.powerOn Config.default

end Sys2Proof.Machine
end

