-- ==== Sys2Proof/Machine/Ops.lean ====
section
/-! DEFINITION. The named operations on the state: the primitives of 00_scope.md R10, the one way an error is raised, the
one way an operation is refused, and the configuration check of 70_reset_and_hazards.md R231. -/

namespace Sys2Proof.Machine

/-- `Emit(e)` (R10). -/
def emit (e : Event) (s : State) : State := { s with ev := s.ev ++ [e] }

/-- `raise <Error>(info)` (R10): an error is an event and transfers no control (60_exceptions.md R208). The one shared
operation of every error; ZFC-1 has no exception entry and no return from one (R209). -/
def raise (e : Err) (s : State) : State := emit (.err e) s

/-- `refuse <Reason>` (R10): sets the sticky mark `REFUSED` and changes no other state of the spec; the reason is the
model's record (log entry 6). -/
def refuse (r : RefuseReason) (s : State) : State := { s with refused := true, refusedWhy := some r }

/-- `TxWrite(w)` (R10): one transport write. -/
def txWrite (w : List Byte) (s : State) : State := { s with txstream := s.txstream ++ w }

/-- `BufAppend(b)` (R10). -/
def bufAppend (b : Byte) (s : State) : State := { s with rxbuf := s.rxbuf ++ [b] }

/-- `BufClear()` (R10). -/
def bufClear (s : State) : State := { s with rxbuf := [] }

/-- `CONN <- c` (10_state.md R24). -/
def setConn (c : Conn) (s : State) : State := { s with conn := c }

/-- Stores the registers of switch instance k. -/
def putSwitch (k : Byte) (w : Switch) (s : State) : State := { s with sw := s.sw.set k.toNat w }

/-- The error codes of 60_exceptions.md R200. -/
def errCode : Err → Byte
  | .checksum _ _ _ _ => 0x01
  | .truncatedHeader _ => 0x02
  | .truncatedPayload _ _ _ => 0x02
  | .overlong _ _ _ => 0x03
  | .transportUnavailable _ _ => 0x04
  | .framingOverflow _ => 0x05

/-- The check of one `CFG_INIT[k]` (R231): a mode that is not reserved, and a delay that fits in 16 bits. -/
def cfgInitOk (c : CfgInit) : Bool := decide (c.mode ≠ .reserved) && decide (c.revertDelay < 2 ^ 16)

/-- The configuration check of R231. `SURPLUS_POLICY` is one of its two values by its type. -/
def configOk (c : Config) : Bool :=
  decide (c.nsw ≤ 256) && decide (1 ≤ c.bufCap) && c.cfgInit.all cfgInitOk
    && decide (valPresence ∈ c.actSet) && decide (valOn ∈ c.actSet)
    && decide (valClosed ∈ c.invActSet) && decide (valOff ∈ c.invActSet) && decide (valOpen ∉ c.invActSet)

end Sys2Proof.Machine
end

