-- ==== Sys2Proof/Machine/Codec.lean ====
section
/-! DEFINITION. The frame codec (40_codec.md), which holds no state (10_state.md R20): escaping, the checksum, `Encode`,
`Decode` and `Deliver`, and the operations ENC and DEC. -/

namespace Sys2Proof.Machine

/-- `E(b)` (30_encoding.md R72). -/
def escapeByte (b : Byte) : List Byte := if b < 0x10 then [escMarker, b ^^^ escMask] else [b]

/-- `Esc(s)` (R71, R73). -/
def escape (l : List Byte) : List Byte := l.flatMap escapeByte

/-- `U(s)` (R75): a dangling escape marker is dropped, and any byte after one is XORed with 0x10. -/
def unescape : List Byte → List Byte
  | [] => []
  | [b] => if b = escMarker then [] else [b]
  | b :: c :: rest => if b = escMarker then (c ^^^ escMask) :: unescape rest else b :: unescape (c :: rest)

/-- `XOR(s)` (00_scope.md R9). -/
def xorBytes (l : List Byte) : Byte := l.foldr (fun b acc => b ^^^ acc) 0

/-- `Checksum(cmd, n, payload)` (40_codec.md R102). -/
def checksum (cmd n : Word16) (payload : List Byte) : Byte := xorBytes (be16 cmd ++ be16 n ++ payload)

/-- The length field, which only the encoder computes (R101). -/
def lengthField (payload : List Byte) : Word16 := BitVec.ofNat 16 payload.length

/-- The frame body (30_encoding.md R70): cmd, length, checksum, payload. -/
def frameBody (cmd : Word16) (payload : List Byte) : List Byte :=
  be16 cmd ++ be16 (lengthField payload) ++ [checksum cmd (lengthField payload) payload] ++ payload

/-- `Encode(cmd, payload)` (40_codec.md R100). -/
def frameEncode (cmd : Word16) (payload : List Byte) : List Byte :=
  [startMarker] ++ escape (frameBody cmd payload) ++ [endMarker]

/-- A `DecodeResult` (R108 to R110). -/
inductive DecodeResult where
  | ok (cmd n : Word16) (chk : Byte) (payload : List Byte)
  | chkErr (cmd n : Word16) (chk computed : Byte)
  | truncHeader (got : Nat)
  | truncPayload (cmd n : Word16) (got : Nat)
  | overlong (cmd n : Word16) (got : Nat)
deriving DecidableEq, Repr

/-- The validity flag of a decoded frame (R110). -/
def isValid : DecodeResult → Bool
  | .ok _ _ _ _ => true
  | .chkErr _ _ _ _ => false
  | .truncHeader _ => false
  | .truncPayload _ _ _ => false
  | .overlong _ _ _ => false

/-- The fourth step of `Decode` (R110): the checksum over the header bytes and the payload. -/
def verifyChecksum (cmd n : Word16) (chk : Byte) (payload : List Byte) : DecodeResult :=
  if checksum cmd n payload = chk then .ok cmd n chk payload else .chkErr cmd n chk (checksum cmd n payload)

/-- The third step of `Decode` (R109): the bytes after the header against the length field. -/
def checkLength (policy : SurplusPolicy) (cmd n : Word16) (chk : Byte) (rest : List Byte) : DecodeResult :=
  if rest.length < n.toNat then .truncPayload cmd n rest.length
  else if n.toNat < rest.length ∧ policy = .reject then .overlong cmd n rest.length
  else verifyChecksum cmd n chk (rest.take n.toNat)

/-- `Decode` of an unescaped span (R108 to R110). -/
def parseBody (policy : SurplusPolicy) : List Byte → DecodeResult
  | c1 :: c0 :: n1 :: n0 :: chk :: rest => checkLength policy (u16 c1 c0) (u16 n1 n0) chk rest
  | short => .truncHeader short.length

/-- `Decode(span)` (R107 to R110): the whole span is unescaped before any field is read. -/
def frameDecode (policy : SurplusPolicy) (span : List Byte) : DecodeResult := parseBody policy (unescape span)

/-- The event that `Deliver` emits (R112). -/
def deliverEvent : DecodeResult → Event
  | .ok cmd n chk payload => .frame cmd n chk payload
  | .chkErr cmd n chk computed => .err (.checksum cmd n chk computed)
  | .truncHeader got => .err (.truncatedHeader got)
  | .truncPayload cmd n got => .err (.truncatedPayload cmd n got)
  | .overlong cmd n got => .err (.overlong cmd n got)

/-- `Deliver(r)` (R112): the one way a result leaves the codec. -/
def deliver (r : DecodeResult) (s : State) : State := emit (deliverEvent r) s

/-- ENC (R104 to R106). -/
def execEnc (cmd : Word16) (payload : List Byte) (s : State) : Host.Outcome State Fault Refusal :=
  if s.conn = .opened then .next (txWrite (frameEncode cmd payload) s)
  else .next (raise (.transportUnavailable cmd (lengthField payload)) s)

/-- DEC (R111). -/
def execDec (span : List Byte) (s : State) : Host.Outcome State Fault Refusal :=
  .next (deliver (frameDecode s.cfg.surplus span) s)

end Sys2Proof.Machine
end

