-- ==== Sys2Proof/Machine/Connection.lean ====
section
/-! DEFINITION. The connection operations BIND and CLOSE (42_connection.md) and RESET (70_reset_and_hazards.md R230). -/

namespace Sys2Proof.Machine

/-- BIND (R150, R151). -/
def execBind (s : State) : Host.Outcome State Fault Refusal :=
  match s.conn with
  | .unbound => .next (setConn .opened s)
  | .opened => .next s
  | .closed => .next s

/-- CLOSE (R152, R153, R154). -/
def execClose (s : State) : Host.Outcome State Fault Refusal := .next (bufClear (setConn .closed s))

/-- RESET (R230): every state element but `TXSTREAM`, `EV` and `REFUSED`; no event. -/
def execReset (s : State) : Host.Outcome State Fault Refusal :=
  .next (bufClear { setConn .unbound s with sw := s.cfg.cfgInit.map Switch.ofInit })

end Sys2Proof.Machine
end

