-- ==== Sys2Proof/Machine/Reassembler.lean ====
section
/-! DEFINITION. The stream reassembler (41_reassembler.md): RXC, byte by byte, and the reception of wire units, which is
the same operation on the unit's bytes. -/

namespace Sys2Proof.Machine

/-- The span after the most recent start marker, or `none` where there is none (R131, R138). -/
def afterLastStart : List Byte → Option (List Byte)
  | [] => none
  | b :: rest =>
    match afterLastStart rest with
    | some span => some span
    | none => if b = startMarker then some rest else none

/-- `EndMarker()` (R131, R132): the span is decoded, or there was only noise; the buffer is emptied either way. -/
def endOfFrame (s : State) : State :=
  match afterLastStart s.rxbuf with
  | some span => bufClear (deliver (frameDecode s.cfg.surplus span) s)
  | none => bufClear s

/-- A framing overflow (R133). -/
def overflow (s : State) : State := setConn .closed (bufClear (raise (.framingOverflow s.rxbuf.length) s))

/-- `PushByte(b)` (R130), without its answer. -/
def pushByte (b : Byte) (s : State) : State :=
  if b = endMarker then endOfFrame s
  else if s.rxbuf.length = s.cfg.bufCap then overflow s
  else bufAppend b s

/-- RXC's loop (R130). In CLOSED every byte is ignored (R143); so is what follows an overflow, which closes the connection
(R133). -/
def receive : List Byte → State → State
  | [], s => s
  | b :: rest, s => if s.conn = .closed then s else receive rest (pushByte b s)

/-- RXC (R130). -/
def execRxc (chunk : List Byte) (s : State) : Host.Outcome State Fault Refusal := .next (receive chunk s)

end Sys2Proof.Machine
end

