-- ==== Sys2Proof/Machine/Operands.lean ====
section
/-! DEFINITION. The operand forms: the instance index `k` of PEV, TON, TOFF and TEXP, and which values of `val` activate
it. Byte strings (payload, span, chunk) are carried in the operation itself (10_state.md R21). -/

namespace Sys2Proof.Machine

/-- The registers of instance k, or `none` for k ≥ `NSW` (30_encoding.md R82). -/
def switchAt (k : Byte) (s : State) : Option Switch := s.sw[k.toNat]?

/-- An operation on instance k: `if k >= NSW: refuse BAD_INSTANCE` (43_switch_fsm.md R162, R166 to R168). -/
def withSwitch (k : Byte) (s : State) (f : Switch → Host.Outcome State Fault Refusal) :
    Host.Outcome State Fault Refusal :=
  match switchAt k s with
  | none => .next (refuse .badInstance s)
  | some w => f w

/-- `Active(k, val)` (R161). -/
def active (c : Config) (w : Switch) (val : Byte) : Bool :=
  if w.inverted then decide (val ∈ c.invActSet) else decide (val ∈ c.actSet)

end Sys2Proof.Machine
end

