-- ==== Sys2Proof/Machine/Flags.lean ====
section
/-! DEFINITION. The flag-like state of ZFC-1 (10_state.md R23) and its computations: the switch bits `ON`, `TMR_ARMED`,
`TRACKED_VALID` with the values beside them, and when TEXP is enabled. The validity of a decoded frame is in
Machine/Codec.lean. -/

namespace Sys2Proof.Machine

/-- `Disarm(k)` (43_switch_fsm.md R170): no revert is pending and the timer reads 0 (10_state.md R32). -/
def disarm (w : Switch) : Switch := { w with tmrArmed := false, tmrRemain := 0 }

/-- Arms the revert timer, or arms it again, with the full delay (R165). -/
def arm (w : Switch) : Switch := { w with tmrArmed := true, tmrRemain := w.revertDelay }

/-- The tracked value is written (R162, R172). -/
def track (val : Byte) (w : Switch) : Switch := { w with trackedValid := true, trackedValue := val }

/-- The tracked value is cleared (R167, R172). -/
def untrack (w : Switch) : Switch := { w with trackedValid := false, trackedValue := 0 }

/-- Whether `Assign(k, v)` notifies, with the old `ON[k]` (R170). -/
def notifies (c : Config) (old v : Bool) : Bool := c.renotify || (old != v)

/-- `Assign(k, v)` (R170), with `w` the instance's other registers as the operation leaves them: `ON[k]` is written and the
notification emitted. -/
def assign (k : Byte) (v : Bool) (w : Switch) (s : State) : State :=
  if notifies s.cfg w.on v then emit (.notify k v) (putSwitch k { w with on := v } s)
  else putSwitch k { w with on := v } s

/-- `TurnOff(k)` (R167). -/
def turnOff (k : Byte) (w : Switch) (s : State) : State := assign k false (untrack (disarm w)) s

/-- TEXP of an instance is enabled (R168). -/
def texpEnabled (w : Switch) : Bool := w.tmrArmed && (w.tmrRemain == 0)

/-- One time unit for one instance (R169): an armed timer counts down, and 0 stays 0. -/
def countDown (w : Switch) : Switch :=
  if w.tmrArmed && decide (0 < w.tmrRemain) then { w with tmrRemain := w.tmrRemain - 1 } else w

/-- The instances whose `TIMER[k]` has an enabled TEXP (70_reset_and_hazards.md R245). -/
def enabledTimers (s : State) : List Nat :=
  (List.range s.sw.length).filter (fun k => (s.sw[k]?).any texpEnabled)

end Sys2Proof.Machine
end

