-- ==== Sys2Proof/Machine/SwitchFsm.lean ====
section
/-! DEFINITION. The switch state machine (43_switch_fsm.md): PEV, TON, TOFF, TICK and TEXP. None of them reads `CONN`
(R173). -/

namespace Sys2Proof.Machine

/-- PEV on an instance that watches the property, `w` already holding the tracked value (R162 to R165, R175). The reserved
mode has no run (70_reset_and_hazards.md R231, log entry 7). -/
def watchedEvent (k val : Byte) (w : Switch) (s : State) : Host.Outcome State Fault Refusal :=
  match w.mode with
  | .direct => .next (assign k (active s.cfg w val) w s)
  | .toggle => if active s.cfg w val then .next (assign k (!w.on) w s) else .next (putSwitch k w s)
  | .momentary => if active s.cfg w val then .next (assign k true (arm w) s) else .next (putSwitch k w s)
  | .reserved => .refused .badConfig

/-- PEV (R162). -/
def execPev (k prop val : Byte) (s : State) : Host.Outcome State Fault Refusal :=
  withSwitch k s (fun w => if prop = w.watchedProp then watchedEvent k val (track val w) s else .next s)

/-- TON (R166). -/
def execTon (k : Byte) (s : State) : Host.Outcome State Fault Refusal :=
  withSwitch k s (fun w => .next (assign k true (disarm w) s))

/-- TOFF (R167). -/
def execToff (k : Byte) (s : State) : Host.Outcome State Fault Refusal :=
  withSwitch k s (fun w => .next (turnOff k w s))

/-- TICK (R169). -/
def execTick (s : State) : Host.Outcome State Fault Refusal := .next { s with sw := s.sw.map countDown }

/-- TEXP (R168). -/
def execTexp (k : Byte) (s : State) : Host.Outcome State Fault Refusal :=
  withSwitch k s (fun w =>
    if texpEnabled w then .next (turnOff k w s) else .next (refuse .texpNotEnabled s))

end Sys2Proof.Machine
end

