-- ==== Sys2Proof/Machine/Wire.lean ====
section
/-! DEFINITION. The units of the wire port (30_encoding.md R76, opcode_table.json rows WIRE_*): each is received as its bytes
are (41_reassembler.md R130, R131, R134; log entry 2). What a unit contributes to a body is `wireValue` (R75, R76). -/

namespace Sys2Proof.Machine

/-- WIRE_START: a start marker is stored like any other byte, and does not empty the buffer (R134). -/
def execWireStart (s : State) : Host.Outcome State Fault Refusal := .next (receive [startMarker] s)

/-- WIRE_ESC: an escape marker is stored, and the non-canonical byte after it where there is one (R134). -/
def execWireEsc (next : Option Byte) (s : State) : Host.Outcome State Fault Refusal :=
  .next (receive (escMarker :: next.toList) s)

/-- WIRE_END: the span since the last start marker is decoded and the buffer emptied (R131, R132). -/
def execWireEnd (s : State) : Host.Outcome State Fault Refusal := .next (receive [endMarker] s)

/-- WIRE_ESCAPED_PAIR: both bytes of the pair are stored (R134); U makes one body byte of them (R75). -/
def execWireEscapedPair (e : Byte) (s : State) : Host.Outcome State Fault Refusal := .next (receive [escMarker, e] s)

/-- WIRE_LITERAL: the byte is stored (R134). -/
def execWireLiteral (b : Byte) (s : State) : Host.Outcome State Fault Refusal := .next (receive [b] s)

/-- WIRE_RAW_LOW: the byte is stored (R134), and kept as itself by U (R75). -/
def execWireRawLow (b : Byte) (s : State) : Host.Outcome State Fault Refusal := .next (receive [b] s)

/-- The body bytes that `U` makes of a unit inside a span (R75, R76): an escape pair stands for one byte, an escape marker
alone for none, any other byte for itself. Operations of the command port stand for none. -/
def wireValue : Instr → List Byte
  | .wireStart => [startMarker]
  | .wireEsc none => []
  | .wireEsc (some b) => [b ^^^ escMask]
  | .wireEnd => [endMarker]
  | .wireEscapedPair e => [e ^^^ escMask]
  | .wireLiteral b => [b]
  | .wireRawLow b => [b]
  | .enc _ _ => []
  | .dec _ => []
  | .rxc _ => []
  | .bind => []
  | .close => []
  | .pev _ _ _ => []
  | .ton _ => []
  | .toff _ => []
  | .tick => []
  | .texp _ => []
  | .reset => []

end Sys2Proof.Machine
end

