-- ==== Sys2Proof/Machine/Dispatch.lean ====
section
/-! DEFINITION. The dispatch: one arm per instruction, each one direct call of its meaning. -/

namespace Sys2Proof.Machine

def exec (i : Instr) (s : State) : Host.Outcome State Fault Refusal :=
  match i with
  | .enc cmd payload => Sys2Proof.Machine.execEnc cmd payload s
  | .dec span => Sys2Proof.Machine.execDec span s
  | .rxc chunk => Sys2Proof.Machine.execRxc chunk s
  | .bind => Sys2Proof.Machine.execBind s
  | .close => Sys2Proof.Machine.execClose s
  | .pev k prop val => Sys2Proof.Machine.execPev k prop val s
  | .ton k => Sys2Proof.Machine.execTon k s
  | .toff k => Sys2Proof.Machine.execToff k s
  | .tick => Sys2Proof.Machine.execTick s
  | .texp k => Sys2Proof.Machine.execTexp k s
  | .reset => Sys2Proof.Machine.execReset s
  | .wireStart => Sys2Proof.Machine.execWireStart s
  | .wireEsc next => Sys2Proof.Machine.execWireEsc next s
  | .wireEnd => Sys2Proof.Machine.execWireEnd s
  | .wireEscapedPair e => Sys2Proof.Machine.execWireEscapedPair e s
  | .wireLiteral b => Sys2Proof.Machine.execWireLiteral b s
  | .wireRawLow b => Sys2Proof.Machine.execWireRawLow b s

end Sys2Proof.Machine
end

