-- ==== Sys2Proof/Machine/RegView.lean ====
section
/-! DEFINITION. The read-only register view (10_state.md R34, R35). Bits not listed read 0. -/

namespace Sys2Proof.Machine

/-- `CONN` as CONN_STATUS[1:0] shows it (10_state.md R24). -/
def connBits : Conn → BitVec 2
  | .unbound => 0
  | .opened => 1
  | .closed => 2

/-- `MODE` as SW_CFG[1:0] shows it (30_encoding.md R90). -/
def modeBits : Mode → BitVec 2
  | .direct => 0
  | .toggle => 1
  | .momentary => 2
  | .reserved => 3

/-- `SURPLUS_POLICY` as CFG_GLOBAL[0] shows it: 0 reject, 1 ignore. -/
def surplusBit : SurplusPolicy → BitVec 1
  | .reject => 0
  | .ignore => 1

/-- CONN_STATUS, register 0x000. -/
def regConnStatus (s : State) : Word32 := 0#30 ++ connBits s.conn

/-- RXBUF_LEN, register 0x001; a free value where the length does not fit its field (log entry 5). -/
def regRxbufLen (s : State) : Word32 :=
  if s.rxbuf.length < 2 ^ 32 then BitVec.ofNat 32 s.rxbuf.length else Config.rxbufLenOver s.rxbuf.length

/-- CFG_GLOBAL, register 0x002: `NSW` − 1 (0 when `NSW` = 0), `RENOTIFY`, `SURPLUS_POLICY`. -/
def regCfgGlobal (s : State) : Word32 :=
  0#16 ++ BitVec.ofNat 8 (s.cfg.nsw - 1) ++ 0#6 ++ BitVec.ofBool s.cfg.renotify ++ surplusBit s.cfg.surplus

/-- BUF_CAP, register 0x003, saturated at 2^32 − 1. -/
def regBufCap (s : State) : Word32 := BitVec.ofNat 32 (min s.cfg.bufCap (2 ^ 32 - 1))

/-- SW_CFG(k), register 0x100 + 4k. -/
def regSwCfg (w : Switch) : Word32 :=
  0#16 ++ w.watchedProp ++ 0#4 ++ BitVec.ofBool w.initOn ++ BitVec.ofBool w.inverted ++ modeBits w.mode

/-- SW_DELAY(k), register 0x101 + 4k. -/
def regSwDelay (w : Switch) : Word32 := 0#16 ++ w.revertDelay

/-- SW_STATUS(k), register 0x102 + 4k. -/
def regSwStatus (w : Switch) : Word32 :=
  0#16 ++ w.trackedValue ++ 0#5 ++ BitVec.ofBool w.trackedValid ++ BitVec.ofBool w.tmrArmed ++ BitVec.ofBool w.on

/-- SW_TIMER(k), register 0x103 + 4k. -/
def regSwTimer (w : Switch) : Word32 := 0#16 ++ w.tmrRemain

/-- The register of an instance at offset 0 to 3 from its base. -/
def switchRegister (off : Nat) (w : Switch) : Word32 :=
  if off = 0 then regSwCfg w
  else if off = 1 then regSwDelay w
  else if off = 2 then regSwStatus w
  else regSwTimer w

/-- The value of a register of the view, or `none` for a number that R34 does not list. -/
def regView (num : Nat) (s : State) : Option Word32 :=
  if num = 0x000 then some (regConnStatus s)
  else if num = 0x001 then some (regRxbufLen s)
  else if num = 0x002 then some (regCfgGlobal s)
  else if num = 0x003 then some (regBufCap s)
  else if num < 0x100 then none
  else (s.sw[(num - 0x100) / 4]?).map (switchRegister ((num - 0x100) % 4))

/-- An observer's read (R34): no side effect, and a number that is not listed is refused (log entry 12). -/
def readRegister (num : Nat) (s : State) : State :=
  match regView num s with
  | some _ => s
  | none => refuse .badRegister s

end Sys2Proof.Machine
end

