-- ==== Sys2Proof/Machine/Port.lean ====
section
/-! DEFINITION. What becomes of one thing an agent hands to the block: a command word or wire bytes (30_encoding.md R76,
R80 to R82), SEND (R94), an administrative request (R95), a register read (10_state.md R34); who may issue what
(20_memory.md R58); and the timers, which act when nothing else waits (70_reset_and_hazards.md R244, R245). -/

namespace Sys2Proof.Machine

/-- The value of a hex digit, in either case (R94). -/
def hexDigit (c : Char) : Option Nat :=
  if '0'.toNat ≤ c.toNat ∧ c.toNat ≤ '9'.toNat then some (c.toNat - '0'.toNat)
  else if 'a'.toNat ≤ c.toNat ∧ c.toNat ≤ 'f'.toNat then some (c.toNat - 'a'.toNat + 10)
  else if 'A'.toNat ≤ c.toNat ∧ c.toNat ≤ 'F'.toNat then some (c.toNat - 'A'.toNat + 10)
  else none

/-- Two hex digits as one byte, the first digit the high nibble (R94; 93_implementation_defined.md G1). -/
def hexByte (hi lo : Char) : Option Byte :=
  match hexDigit hi, hexDigit lo with
  | some h, some l => some (BitVec.ofNat 8 (16 * h + l))
  | _, _ => none

/-- The bytes of a string of hex digits, or `none` for an odd count or another character (R94). -/
def hexBytes : List Char → Option (List Byte)
  | [] => some []
  | [_] => none
  | hi :: lo :: rest =>
    match hexByte hi lo, hexBytes rest with
    | some b, some bs => some (b :: bs)
    | _, _ => none

/-- The expansion of SEND to one ENC, or `none` where R94 refuses it. -/
def expandSend (cmd payload : List Char) : Option Instr :=
  match hexBytes cmd, hexBytes payload with
  | some [c1, c0], some p => if p.length ≤ maxPayload then some (.enc (u16 c1 c0) p) else none
  | _, _ => none

/-- The name under which a word that decodes to nothing is refused (60_exceptions.md R207). -/
def decodeReason : DecodeError → RefuseReason
  | .illegalOpcode => .illegalOpcode
  | .badLength => .badLength

/-- The agent an operation is assigned to (20_memory.md R58, 30_encoding.md R80); the wire belongs to TRANSPORT. -/
def agentOf : Instr → Agent
  | .enc _ _ => .host
  | .dec _ => .host
  | .rxc _ => .transport
  | .bind => .host
  | .close => .host
  | .pev _ _ _ => .propsrc
  | .ton _ => .host
  | .toff _ => .host
  | .tick => .timebase
  | .texp k => .timer k
  | .reset => .host
  | .wireStart => .transport
  | .wireEsc _ => .transport
  | .wireEnd => .transport
  | .wireEscapedPair _ => .transport
  | .wireLiteral _ => .transport
  | .wireRawLow _ => .transport

/-- A command word issued by agent a. A word with no instruction is refused (R82); an operation that is not the agent's has
no move (70_reset_and_hazards.md R246, log entry 8). -/
def performCommand (a : Agent) (word : List Byte) (s : State) : Host.Outcome State Fault Refusal :=
  match decodeCommand word with
  | .error e => .next (refuse (decodeReason e) s)
  | .ok i => if a = agentOf i then exec i s else .refused .notAssigned

/-- What is left to be taken after the first unit of some wire bytes. -/
def keepWaiting (rest : List Byte) (s : State) : State :=
  match rest with
  | [] => s
  | b :: more => { s with pending := .wire (b :: more) :: s.pending }

/-- The first unit of the bytes arriving on the wire (R76); the rest waits at the head of the inputs. -/
def performWire (bytes : List Byte) (s : State) : Host.Outcome State Fault Refusal :=
  match decodeWire bytes with
  | none => .next s
  | some (i, rest) => exec i (keepWaiting rest s)

/-- SEND (R94): one ENC, or a refusal at expansion. -/
def performSend (cmd payload : List Char) (s : State) : Host.Outcome State Fault Refusal :=
  match expandSend cmd payload with
  | some i => exec i s
  | none => .next (refuse .badSendSyntax s)

/-- One input. The administrative sequences whose frames no source gives are refused by name (R95). -/
def perform (inp : Input) (s : State) : Host.Outcome State Fault Refusal :=
  match inp with
  | .command a word => performCommand a word s
  | .wire bytes => performWire bytes s
  | .send cmd payload => performSend cmd payload s
  | .permitJoin => .next (refuse .undefinedAdmin s)
  | .initNetwork => .next (refuse .undefinedAdmin s)
  | .readRegister num => .next (readRegister num s)

/-- The timer that is scheduled among several enabled ones: a free choice (60_exceptions.md R214, log entry 4). -/
def chosenTimer (turn first : Nat) (others : List Nat) : Nat :=
  (first :: others).getD (Config.timerChoice turn % (others.length + 1)) first

/-- When no input waits, only the timers act (70_reset_and_hazards.md R244): an enabled TEXP is taken; where none is
enabled the run has ended (R245), and the state stays as it is (log entry 11). -/
def timersTurn (s : State) : Host.Outcome State Fault Refusal :=
  match enabledTimers s with
  | [] => .next s
  | k :: ks => exec (.texp (BitVec.ofNat 8 (chosenTimer s.turn k ks))) { s with turn := s.turn + 1 }

/-- One turn of the block (20_memory.md R58, R59): the next input in the order in which the agents are scheduled, or the
timers. -/
def takeTurn (s : State) : Host.Outcome State Fault Refusal :=
  match s.pending with
  | [] => timersTurn s
  | inp :: rest => perform inp { s with pending := rest }

/-- The input that hands the opcode table's number w to its port, from the agent the instruction belongs to. -/
def tableInputOf (nbits w : Nat) : Input :=
  match tableInput nbits w with
  | (.command, bytes) => .command (((decodeCommand bytes).toOption.map agentOf).getD .host) bytes
  | (.wire, bytes) => .wire bytes

end Sys2Proof.Machine
end

