-- ==== Sys2Proof/Machine/Step.lean ====
section
/-! DEFINITION. One step of the machine, and where its next instruction is placed. -/

namespace Sys2Proof.Machine

/-- One step. The configuration is checked before anything happens (70_reset_and_hazards.md R231; no operation writes it, so
checking at every step is checking once: log entry 7). -/
def step (s : State) : Host.Outcome State Fault Refusal :=
  if configOk s.cfg then takeTurn s else .refused .badConfig

/-- `s` with the opcode table's instruction w as the next thing handed to the block (log entry 3). -/
def State.withFetchWord (s : State) (nbits w : Nat) : State :=
  { s with pending := tableInputOf nbits w :: s.pending }

end Sys2Proof.Machine
end

