-- ==== Sys2Proof/Safety.lean ====
section
/-! DEFINITION. The vocabulary of the claims: the invariant of the machine, runs of operations, when a run is good, the
source's chunk-level reassembler, and tampering with a body. -/

namespace Sys2Proof.Machine

/-- What holds of the registers of an instance whose parameter is `c` (10_state.md R28, R29, R31 to R33; 43_switch_fsm.md
R163 to R165): the configuration is the parameter's; an unarmed timer reads 0; only a momentary instance that is on, and has
seen a watched event, has a revert pending, with at most the full delay left; an invalid tracked value reads 0. -/
structure SwitchInv (c : CfgInit) (w : Switch) : Prop where
  mode        : w.mode = c.mode
  inverted    : w.inverted = c.inverted
  revertDelay : w.revertDelay = BitVec.ofNat 16 c.revertDelay
  watchedProp : w.watchedProp = c.watchedProp
  initOn      : w.initOn = c.initOn
  unarmed     : w.tmrArmed = false → w.tmrRemain = 0
  armed       : w.tmrArmed = true → w.mode = .momentary ∧ w.on = true ∧ w.trackedValid = true ∧ w.tmrRemain ≤ w.revertDelay
  untracked   : w.trackedValid = false → w.trackedValue = 0

/-- The invariant of the machine: the configuration is well-formed (70_reset_and_hazards.md R231); the buffer is within its
capacity and holds no end marker (10_state.md R25), and is empty when the connection is closed (42_connection.md R153); every
instance of the configuration has its registers, and they are consistent; a refusal has a name. -/
structure MachineInv (s : State) : Prop where
  config      : configOk s.cfg = true
  capacity    : s.rxbuf.length ≤ s.cfg.bufCap
  noEndMarker : endMarker ∉ s.rxbuf
  closedEmpty : s.conn = .closed → s.rxbuf = []
  switches    : List.Forall₂ SwitchInv s.cfg.cfgInit s.sw
  refusal     : s.refused = s.refusedWhy.isSome

/-- Operations performed one after the other (20_memory.md R59), up to the first that gives no next state. -/
def execAll : List Instr → State → Host.Outcome State Fault Refusal
  | [], s => .next s
  | i :: rest, s =>
    match exec i s with
    | .next t => execAll rest t
    | .fault r => .fault r
    | .refused r => .refused r

/-- The run has ended: no `TIMER[k]` has an enabled TEXP (70_reset_and_hazards.md R245). -/
def runEnded (s : State) : Prop := enabledTimers s = []

/-- A run that ends in s was good: no operation of it was refused (10_state.md R36, 70_reset_and_hazards.md R245). -/
def goodRun (s : State) : Prop := s.refused = false

/-- The bytes before and after the first end marker, or `none` where there is none. -/
def cutFirstEnd : List Byte → Option (List Byte × List Byte)
  | [] => none
  | b :: rest => if b = endMarker then some ([], rest) else (cutFirstEnd rest).map (fun p => (b :: p.1, p.2))

/-- The source's loop (41_reassembler.md R136): cut at the first end marker, from the most recent start marker before it,
until no end marker is left; the results in order and the remaining buffer. At most `fuel` cuts are made. -/
def cutLoop (policy : SurplusPolicy) : Nat → List Byte → List DecodeResult × List Byte
  | 0, buf => ([], buf)
  | fuel + 1, buf =>
    match cutFirstEnd buf with
    | none => ([], buf)
    | some (before, rest) =>
      (((afterLastStart before).map (frameDecode policy)).toList ++ (cutLoop policy fuel rest).1,
        (cutLoop policy fuel rest).2)

/-- The source's chunk-level procedure (R136): append the chunk, then cut as often as there are bytes. -/
def chunkLevel (policy : SurplusPolicy) (buf chunk : List Byte) : List DecodeResult × List Byte :=
  cutLoop policy (buf ++ chunk).length (buf ++ chunk)

/-- A byte sequence with bit j of the byte at index i flipped (40_codec.md R116). -/
def flipBit (l : List Byte) (i j : Nat) : List Byte := l.modify i (fun b => b ^^^ (1#8 <<< j))

/-- The body with its length field read as a number (40_codec.md R108). -/
def bodyLength (l : List Byte) : Nat := (u16 (l.getD 2 0) (l.getD 3 0)).toNat

/-- `val` is activating for an instance (43_switch_fsm.md R161). -/
def Activating (c : Config) (w : Switch) (val : Byte) : Prop :=
  if w.inverted = true then val ∈ c.invActSet else val ∈ c.actSet

/-- `s` after an assignment to `ON[k]` that leaves the registers `w` of instance k, where `ON[k]` was `old`: notified with
`RENOTIFY`, or when it changed (R170). -/
def afterAssign (k : Byte) (old : Bool) (w : Switch) (s : State) : State :=
  { s with
    sw := s.sw.set k.toNat w
    ev := s.ev ++ (if s.cfg.renotify = true ∨ old ≠ w.on then [.notify k w.on] else []) }

/-- An instance as `TurnOff` leaves it (R167). -/
def offSwitch (w : Switch) : Switch :=
  { w with on := false, tmrArmed := false, tmrRemain := 0, trackedValid := false, trackedValue := 0 }

/-- `s` after the refusal of an operation for the reason r (00_scope.md R10). -/
def afterRefusal (r : RefuseReason) (s : State) : State := { s with refused := true, refusedWhy := some r }

/-- The register view reads v at number num (10_state.md R34). -/
def Reads (num : Nat) (s : State) (v : Word32) : Prop := regView num s = some v

end Sys2Proof.Machine
end

