-- ==== Sys2Proof/Certificates/Slice0/Obligations.lean ====
section
/-! DEFINITION. The statements for the provers, from the numbered rules of spec/. -/

open Sys2Proof Sys2Proof.Machine

/-! ## The two encodings -/

/-- Every well-formed operation of the command port is decoded from its own word (30_encoding.md R80, R81). -/
def Obligations.CommandDecodeOfEncode : Prop :=
  ∀ i : Instr, wellFormed i = true → portOf i = .command → decodeCommand (encode i) = .ok i

/-- A command word has one meaning: what it decodes to is well-formed, and is encoded by that word. -/
def Obligations.CommandEncodeOfDecode : Prop :=
  ∀ (word : List Byte) (i : Instr), decodeCommand word = .ok i →
    portOf i = .command ∧ wellFormed i = true ∧ encode i = word

/-- Every well-formed unit of the wire is cut off the front of any stream it begins; an escape marker alone is one only
before a start or end marker or at the end (R76). -/
def Obligations.WireDecodeOfEncode : Prop :=
  ∀ (i : Instr) (rest : List Byte), wellFormed i = true → portOf i = .wire →
    (i = .wireEsc none → ∀ b ∈ rest.head?, b = 0x01 ∨ b = 0x03) →
    decodeWire (encode i ++ rest) = some (i, rest)

/-- The unit cut off a stream is a well-formed unit of the wire whose bytes begin the stream, and every stream with a byte
in it begins with one (R76). -/
def Obligations.WireEncodeOfDecode : Prop :=
  (∀ (bytes : List Byte) (i : Instr) (rest : List Byte), decodeWire bytes = some (i, rest) →
    portOf i = .wire ∧ wellFormed i = true ∧ encode i ++ rest = bytes) ∧
  ∀ (b : Byte) (more : List Byte), ∃ u, decodeWire (b :: more) = some u

/-- Words written out in 95_test_vectors.md V-P decode to what they are said to mean. -/
def Obligations.SpecWordsDecode : Prop :=
  decodeCommand [0x10, 0xAB, 0xCD, 0x00, 0x03, 0x10, 0x20, 0x30] = .ok (.enc 0xABCD [0x10, 0x20, 0x30]) ∧
  decodeCommand [0x11, 0x00, 0x08, 0x02, 0x10, 0x10, 0x02, 0x10, 0x02, 0x10, 0x10] =
    .ok (.dec [0x02, 0x10, 0x10, 0x02, 0x10, 0x02, 0x10, 0x10]) ∧
  decodeCommand [0x30] = .ok .bind ∧
  decodeCommand [0x40, 0x00, 0x01, 0x01] = .ok (.pev 0 propEvent valPresence) ∧
  decodeCommand [0x44, 0x00] = .ok (.texp 0) ∧
  decodeCommand [0x12] = .error .illegalOpcode ∧
  decodeCommand [0x30, 0x00] = .error .badLength ∧
  decodeCommand [0x10, 0x00, 0x10, 0x00, 0x02, 0xAA] = .error .badLength

/-- R82: the command words that are refused, each with no other effect than the mark. The mark's recorded name, and that a
word is its agent's, are the model's (log entries 6 and 8). -/
def Obligations.CommandWordsRefused : Prop :=
  ∀ (s : State) (a : Agent) (op : Byte) (args : List Byte) (rest : List Input), MachineInv s →
    s.pending = .command a (op :: args) :: rest →
    (op ∉ [0x10, 0x11, 0x20, 0x30, 0x31, 0x40, 0x41, 0x42, 0x43, 0x44, 0xFF] →
      step s = .next (afterRefusal .illegalOpcode { s with pending := rest })) ∧
    (op ∈ [0x10, 0x11, 0x20, 0x30, 0x31, 0x40, 0x41, 0x42, 0x43, 0x44, 0xFF] →
      (op :: args).length ≠ commandLength (op :: args) →
      step s = .next (afterRefusal .badLength { s with pending := rest })) ∧
    (op ∈ [0x10, 0x11, 0x20, 0x30, 0x31, 0x40, 0x41, 0x42, 0x43, 0x44, 0xFF] →
      (op :: args).length = commandLength (op :: args) → ∃ i, decodeCommand (op :: args) = .ok i) ∧
    (∀ k prop val : Byte, op = 0x40 → args = [k, prop, val] → a = .propsrc → s.cfg.nsw ≤ k.toNat →
      step s = .next (afterRefusal .badInstance { s with pending := rest })) ∧
    (∀ k : Byte, (op = 0x41 ∨ op = 0x42) → args = [k] → a = .host → s.cfg.nsw ≤ k.toNat →
      step s = .next (afterRefusal .badInstance { s with pending := rest })) ∧
    (∀ k : Byte, op = 0x44 → args = [k] → a = .timer k → s.cfg.nsw ≤ k.toNat →
      step s = .next (afterRefusal .badInstance { s with pending := rest })) ∧
    (∀ (k : Byte) (w : Switch), op = 0x44 → args = [k] → a = .timer k → s.sw[k.toNat]? = some w →
      ¬(w.tmrArmed = true ∧ w.tmrRemain = 0) →
      step s = .next (afterRefusal .texpNotEnabled { s with pending := rest }))

/-! ## A step -/

/-- A step runs the operation its command word decodes to, when that operation is its agent's (log entry 3: the list
of inputs is the model's). -/
def Obligations.StepRunsCommandWord : Prop :=
  ∀ (s : State) (i : Instr) (word : List Byte) (rest : List Input), configOk s.cfg = true →
    s.pending = .command (agentOf i) word :: rest → decodeCommand word = .ok i →
    step s = exec i { s with pending := rest }

/-- A step runs the first unit of the bytes on the wire; the rest of them waits at the head of the inputs
(the model's choice, log entries 2 and 3). -/
def Obligations.StepRunsWireUnit : Prop :=
  ∀ (s : State) (i : Instr) (bytes more : List Byte) (rest : List Input), configOk s.cfg = true →
    s.pending = .wire bytes :: rest → decodeWire bytes = some (i, more) →
    step s = exec i { s with pending := if more = [] then rest else .wire more :: rest }

/-- An operation of an agent it is not assigned to has no move (20_memory.md R58, 70_reset_and_hazards.md R246; the refusal
of the whole step is the model's reading, log entry 8). -/
def Obligations.WrongAgentHasNoMove : Prop :=
  ∀ (s : State) (a : Agent) (i : Instr) (word : List Byte) (rest : List Input), configOk s.cfg = true →
    s.pending = .command a word :: rest → decodeCommand word = .ok i →
    (match i with
      | .rxc _ => a ≠ .transport
      | .pev _ _ _ => a ≠ .propsrc
      | .tick => a ≠ .timebase
      | .texp k => a ≠ .timer k
      | _ => a ≠ .host) →
    step s = .refused .notAssigned

/-- R231: the conditions of a well-formed configuration, without which nothing runs (that a step answers `badConfig` then is
how the model says that no run exists, and so does PEV on an instance in the reserved mode: log entry 7). -/
def Obligations.IllFormedConfigHasNoRun : Prop :=
  (∀ s : State,
    let c := s.cfg
    let good : Prop := c.nsw ≤ 256 ∧ 1 ≤ c.bufCap ∧ (c.surplus = .reject ∨ c.surplus = .ignore) ∧
      (∀ x ∈ c.cfgInit, (x.mode = .direct ∨ x.mode = .toggle ∨ x.mode = .momentary) ∧ x.revertDelay < 2 ^ 16) ∧
      valPresence ∈ c.actSet ∧ valOn ∈ c.actSet ∧
      valClosed ∈ c.invActSet ∧ valOff ∈ c.invActSet ∧ valOpen ∉ c.invActSet
    (¬good → step s = .refused .badConfig) ∧ (good → step s = takeTurn s)) ∧
  ∀ (k val : Byte) (w : Switch) (s : State), s.sw[k.toNat]? = some w → w.mode = .reserved →
    exec (.pev k w.watchedProp val) s = .refused .badConfig

/-- R94: a SEND expands to one ENC, and is refused in exactly the cases the rule lists. -/
def Obligations.SendExpandsToEnc : Prop :=
  (∀ (c : Char) (v : Nat), hexDigit c = some v ↔ (c, v) ∈
    [('0', 0), ('1', 1), ('2', 2), ('3', 3), ('4', 4), ('5', 5), ('6', 6), ('7', 7), ('8', 8), ('9', 9),
     ('a', 10), ('b', 11), ('c', 12), ('d', 13), ('e', 14), ('f', 15),
     ('A', 10), ('B', 11), ('C', 12), ('D', 13), ('E', 14), ('F', 15)]) ∧
  (∀ (h3 h2 h1 h0 : Char) (v3 v2 v1 v0 : Nat) (digits : List (Char × Char)) (bytes : List Byte),
    hexDigit h3 = some v3 → hexDigit h2 = some v2 → hexDigit h1 = some v1 → hexDigit h0 = some v0 →
    List.Forall₂ (fun d b => ∃ h l, hexDigit d.1 = some h ∧ hexDigit d.2 = some l ∧ b = BitVec.ofNat 8 (16 * h + l))
      digits bytes →
    bytes.length ≤ 65535 →
    expandSend [h3, h2, h1, h0] (digits.flatMap (fun d => [d.1, d.2])) =
      some (.enc (BitVec.ofNat 16 (4096 * v3 + 256 * v2 + 16 * v1 + v0)) bytes)) ∧
  (∀ cmd payload : List Char,
    cmd.length ≠ 4 ∨ payload.length % 2 = 1 ∨ (∃ c ∈ cmd, hexDigit c = none) ∨ (∃ c ∈ payload, hexDigit c = none) ∨
      2 * 65535 < payload.length →
    expandSend cmd payload = none) ∧
  ∀ (s : State) (cmd payload : List Char) (rest : List Input), configOk s.cfg = true →
    s.pending = .send cmd payload :: rest →
    (∀ i, expandSend cmd payload = some i → step s = exec i { s with pending := rest }) ∧
    (expandSend cmd payload = none → step s = .next (afterRefusal .badSendSyntax { s with pending := rest }))

/-- "Permit join" and "initialize network" are refused by name: no frame is invented for them (R95; that they are
inputs is the model's choice, log entry 15). -/
def Obligations.AdminRefusedByName : Prop :=
  ∀ (s : State) (inp : Input) (rest : List Input), configOk s.cfg = true →
    s.pending = inp :: rest → inp = .permitJoin ∨ inp = .initNetwork →
    step s = .next (afterRefusal .undefinedAdmin { s with pending := rest })

/-- When nothing is handed to the block, an enabled timer acts, whichever of them (R244); where none is enabled the run has
ended (R245) and the state stays (log entries 4 and 11). -/
def Obligations.TimersActWhenNothingWaits : Prop :=
  ∀ s : State, MachineInv s → s.pending = [] →
    (runEnded s → step s = .next s) ∧
    (¬runEnded s → ∃ (k : Byte) (w : Switch), s.sw[k.toNat]? = some w ∧ w.tmrArmed = true ∧ w.tmrRemain = 0 ∧
      step s = exec (.texp k) { s with turn := s.turn + 1 })

/-! ## The frame codec -/

/-- R75: what `U` does, shape by shape, and that it undoes `Esc`. -/
def Obligations.UnescapeUndoesEscape : Prop :=
  unescape [] = [] ∧ unescape [0x02] = [] ∧
  (∀ (c : Byte) (rest : List Byte), unescape (0x02 :: c :: rest) = (c ^^^ 0x10) :: unescape rest) ∧
  (∀ (b : Byte) (rest : List Byte), b ≠ 0x02 → unescape (b :: rest) = b :: unescape rest) ∧
  ∀ body rest : List Byte, unescape (escape body ++ rest) = body ++ unescape rest

/-- R74: the markers of an encoded frame stand at its two ends only, and between them are escape pairs and literals. -/
def Obligations.EncodedFrameMarkers : Prop :=
  ∀ (cmd : Word16) (payload : List Byte), ∃ units : List (List Byte),
    frameEncode cmd payload = [0x01] ++ units.flatten ++ [0x03] ∧
    (∀ u ∈ units, (∃ e : Byte, 0x10 ≤ e ∧ e ≤ 0x1F ∧ u = [0x02, e]) ∨ (∃ b : Byte, 0x10 ≤ b ∧ u = [b])) ∧
    (frameEncode cmd payload).count 0x01 = 1 ∧ (frameEncode cmd payload).count 0x03 = 1

/-- R115: each body byte appears in the frame, in order: a low byte v as `0x02, v ^ 0x10`, any other as itself, once. -/
def Obligations.BodyByteInFrame : Prop :=
  ∀ (cmd : Word16) (payload before after : List Byte) (v : Byte),
    be16 cmd ++ be16 (BitVec.ofNat 16 payload.length) ++
      [checksum cmd (BitVec.ofNat 16 payload.length) payload] ++ payload = before ++ v :: after →
    ∃ wireBefore wireAfter : List Byte,
      unescape wireBefore = before ∧ unescape wireAfter = after ∧
      (v < 0x10 → frameEncode cmd payload = 0x01 :: wireBefore ++ [0x02, v ^^^ 0x10] ++ wireAfter ++ [0x03]) ∧
      (0x10 ≤ v → frameEncode cmd payload = 0x01 :: wireBefore ++ [v] ++ wireAfter ++ [0x03])

/-- R77: the wire length of a frame, its length bytes that are 0x00 (and so escaped), its bounds, and that both are met. -/
def Obligations.WireLengthBounds : Prop :=
  (∀ (cmd : Word16) (payload : List Byte),
    (frameEncode cmd payload).length =
      2 + ((frameBody cmd payload).map (fun b => if b < 0x10 then 2 else 1)).sum) ∧
  (∀ (cmd : Word16) (payload : List Byte),
    (payload.length < 256 → (frameBody cmd payload)[2]? = some 0x00) ∧
    (payload = [] → (frameBody cmd payload)[3]? = some 0x00)) ∧
  escapeByte 0x00 = [0x02, 0x10] ∧
  (∀ (cmd : Word16) (payload : List Byte), payload.length ≤ 65535 →
    9 ≤ (frameEncode cmd payload).length ∧ (frameEncode cmd payload).length ≤ 131080) ∧
  frameEncode 0xABCD [] = [0x01, 0xAB, 0xCD, 0x02, 0x10, 0x02, 0x10, 0x66, 0x03] ∧
  checksum 0x0000 0xFFFF (List.replicate 65535 0x00) = 0x00 ∧
  (frameEncode 0x0000 (List.replicate 65535 0x00)).length = 131080

/-- R102: the checksum is the XOR of the command_id, length and payload bytes, in any order. -/
def Obligations.ChecksumIsXor : Prop :=
  (∀ (cmd n : Word16) (payload : List Byte),
    checksum cmd n payload = payload.foldl (fun acc b => acc ^^^ b)
      (cmd.extractLsb' 8 8 ^^^ cmd.extractLsb' 0 8 ^^^ n.extractLsb' 8 8 ^^^ n.extractLsb' 0 8)) ∧
  ∀ l l' : List Byte, l.Perm l' → xorBytes l = xorBytes l'

/-- R108 to R110, R212: the four checks of `Decode`, in their order, and the one validity flag. -/
def Obligations.DecodeChecksInOrder : Prop :=
  ∀ (policy : SurplusPolicy) (span : List Byte),
    ((unescape span).length < 5 → frameDecode policy span = .truncHeader (unescape span).length) ∧
    (∀ (cmd n : Word16) (chk : Byte) (rest : List Byte), unescape span = be16 cmd ++ be16 n ++ [chk] ++ rest →
      (rest.length < n.toNat → frameDecode policy span = .truncPayload cmd n rest.length) ∧
      (n.toNat < rest.length → policy = .reject → frameDecode policy span = .overlong cmd n rest.length) ∧
      (n.toNat = rest.length ∨ (n.toNat < rest.length ∧ policy = .ignore) →
        (checksum cmd n (rest.take n.toNat) ≠ chk →
          frameDecode policy span = .chkErr cmd n chk (checksum cmd n (rest.take n.toNat))) ∧
        (checksum cmd n (rest.take n.toNat) = chk → frameDecode policy span = .ok cmd n chk (rest.take n.toNat)))) ∧
    (5 ≤ (unescape span).length → ∃ (cmd n : Word16) (chk : Byte) (rest : List Byte),
      unescape span = be16 cmd ++ be16 n ++ [chk] ++ rest) ∧
    (isValid (frameDecode policy span) = true ↔ ∃ cmd n chk p, frameDecode policy span = .ok cmd n chk p)

/-- R114: decoding an encoded frame, its markers taken off, gives back the command id and the payload, under either policy. -/
def Obligations.FrameRoundTrip : Prop :=
  ∀ (cmd : Word16) (payload : List Byte) (policy : SurplusPolicy), payload.length ≤ 65535 →
    frameDecode policy (frameEncode cmd payload).tail.dropLast =
      .ok cmd (BitVec.ofNat 16 payload.length) (checksum cmd (BitVec.ofNat 16 payload.length) payload) payload

/-- R116: a body with one flipped bit is never accepted under `reject`, and which error reports the flip; the length flip of
95_test_vectors.md V-D12 is accepted under `ignore`. -/
def Obligations.TamperedBodyRejected : Prop :=
  (∀ (cmd : Word16) (payload : List Byte) (i j : Nat),
    payload.length ≤ 65535 → i < 5 + payload.length → j < 8 →
    let flipped := flipBit (frameBody cmd payload) i j
    (i < 2 ∨ 4 ≤ i → ∀ policy : SurplusPolicy, ∃ (cmd' n : Word16) (chk computed : Byte),
      frameDecode policy (escape flipped) = .chkErr cmd' n chk computed ∧ chk ^^^ computed = 1#8 <<< j) ∧
    (i = 2 ∨ i = 3 → payload.length < bodyLength flipped → ∀ policy : SurplusPolicy,
      frameDecode policy (escape flipped) = .truncPayload cmd (BitVec.ofNat 16 (bodyLength flipped)) payload.length) ∧
    (i = 2 ∨ i = 3 → bodyLength flipped < payload.length →
      frameDecode .reject (escape flipped) = .overlong cmd (BitVec.ofNat 16 (bodyLength flipped)) payload.length) ∧
    isValid (frameDecode .reject (escape flipped)) = false) ∧
  frameDecode .ignore (escape (flipBit (frameBody 0xABCD [0x20, 0x22]) 3 1)) = .ok 0xABCD 0 0x66 []

/-- R104, R106: ENC writes its frame in one write when the connection is open, and otherwise logs one error and writes
nothing; nothing else changes. -/
def Obligations.EncResult : Prop :=
  (∀ (cmd : Word16) (payload : List Byte), payload.length ≤ 65535 →
    decodeCommand (0x10 :: be16 cmd ++ be16 (BitVec.ofNat 16 payload.length) ++ payload) = .ok (.enc cmd payload)) ∧
  ∀ (cmd : Word16) (payload : List Byte) (s : State),
    (s.conn = .opened → exec (.enc cmd payload) s = .next { s with txstream := s.txstream ++ frameEncode cmd payload }) ∧
    (s.conn = .unbound ∨ s.conn = .closed → exec (.enc cmd payload) s =
      .next { s with ev := s.ev ++ [.err (.transportUnavailable cmd (BitVec.ofNat 16 payload.length))] })

/-- R111, R112: DEC emits exactly one event, which says what `Decode` returned, in every connection state. -/
def Obligations.DecResult : Prop :=
  (∀ span : List Byte, span.length ≤ 65535 →
    decodeCommand (0x11 :: be16 (BitVec.ofNat 16 span.length) ++ span) = .ok (.dec span)) ∧
  ∀ (span : List Byte) (s : State), ∃ e : Event,
    exec (.dec span) s = .next { s with ev := s.ev ++ [e] } ∧
    (∀ cmd n chk p, frameDecode s.cfg.surplus span = .ok cmd n chk p → e = .frame cmd n chk p) ∧
    (∀ cmd n chk c, frameDecode s.cfg.surplus span = .chkErr cmd n chk c → e = .err (.checksum cmd n chk c)) ∧
    (∀ got, frameDecode s.cfg.surplus span = .truncHeader got → e = .err (.truncatedHeader got)) ∧
    (∀ cmd n got, frameDecode s.cfg.surplus span = .truncPayload cmd n got → e = .err (.truncatedPayload cmd n got)) ∧
    (∀ cmd n got, frameDecode s.cfg.surplus span = .overlong cmd n got → e = .err (.overlong cmd n got))

/-- The error codes (R200): each error event carries the code of the table, so no other code is ever emitted. -/
def Obligations.ErrorCodes : Prop :=
  ∀ e : Err, (errCode e = 0x01 ↔ ∃ cmd n chk c, e = .checksum cmd n chk c) ∧
    (errCode e = 0x02 ↔ (∃ got, e = .truncatedHeader got) ∨ ∃ cmd n got, e = .truncatedPayload cmd n got) ∧
    (errCode e = 0x03 ↔ ∃ cmd n got, e = .overlong cmd n got) ∧
    (errCode e = 0x04 ↔ ∃ cmd n, e = .transportUnavailable cmd n) ∧
    (errCode e = 0x05 ↔ ∃ cap, e = .framingOverflow cap) ∧
    errCode e ∈ [0x01, 0x02, 0x03, 0x04, 0x05]

/-! ## The stream reassembler -/

/-- R131 to R134: what RXC does with each byte of its chunk while the connection is not closed. -/
def Obligations.RxcByByte : Prop :=
  ∀ s : State,
    exec (.rxc []) s = .next s ∧
    (s.conn = .closed → ∀ chunk, exec (.rxc chunk) s = .next s) ∧
    (s.conn ≠ .closed → ∀ rest : List Byte,
      (∀ noise span : List Byte, s.rxbuf = noise ++ 0x01 :: span → 0x01 ∉ span →
        exec (.rxc (0x03 :: rest)) s = exec (.rxc rest)
          { s with rxbuf := [], ev := s.ev ++ [deliverEvent (frameDecode s.cfg.surplus span)] }) ∧
      (0x01 ∉ s.rxbuf → exec (.rxc (0x03 :: rest)) s = exec (.rxc rest) { s with rxbuf := [] }) ∧
      (∀ b : Byte, b ≠ 0x03 → s.rxbuf.length = s.cfg.bufCap →
        exec (.rxc (b :: rest)) s = .next
          { s with rxbuf := [], conn := .closed, ev := s.ev ++ [.err (.framingOverflow s.cfg.bufCap)] }) ∧
      (∀ b : Byte, b ≠ 0x03 → s.rxbuf.length < s.cfg.bufCap →
        exec (.rxc (b :: rest)) s = exec (.rxc rest) { s with rxbuf := s.rxbuf ++ [b] }))

/-- What receiving leaves unchanged, for RXC and every unit of the wire: only the buffer, the connection (by closing it, with
an empty buffer) and the events (by adding some) may change; and it always completes. That a unit of the wire is received is the
model's reading (log entry 2). -/
def Obligations.ReceiveFrame : Prop :=
  ∀ (i : Instr) (s : State), (∃ chunk, i = .rxc chunk) ∨ portOf i = .wire →
    ∃ t : State, exec i s = .next t ∧
      t.cfg = s.cfg ∧ t.txstream = s.txstream ∧ t.sw = s.sw ∧ t.refused = s.refused ∧ t.refusedWhy = s.refusedWhy ∧
      t.pending = s.pending ∧ t.turn = s.turn ∧ s.ev <+: t.ev ∧
      (t.conn = s.conn ∨ (t.conn = .closed ∧ t.rxbuf = []))

/-- R137: the events, the buffer, the connection and all else are the same however a byte stream is split into chunks,
overflow included. -/
def Obligations.FragmentationInvariance : Prop :=
  ∀ (chunks : List (List Byte)) (s : State), execAll (chunks.map .rxc) s = exec (.rxc chunks.flatten) s

/-- R136: where the buffer cannot overflow, the byte-serial RXC gives the decodes and the buffer of the source's chunk-level
procedure. -/
def Obligations.RxcIsChunkLevel : Prop :=
  ∀ (chunk : List Byte) (s : State), s.conn ≠ .closed → endMarker ∉ s.rxbuf →
    s.rxbuf.length + chunk.length ≤ s.cfg.bufCap →
    exec (.rxc chunk) s = .next
      { s with
        rxbuf := (chunkLevel s.cfg.surplus s.rxbuf chunk).2
        ev := s.ev ++ (chunkLevel s.cfg.surplus s.rxbuf chunk).1.map deliverEvent }

/-- R139: a whole encoded frame, received in any split behind any buffer that leaves it room, is delivered as exactly one
FRAME, and empties the buffer. -/
def Obligations.Resynchronisation : Prop :=
  ∀ (cmd : Word16) (payload : List Byte) (chunks : List (List Byte)) (s : State),
    payload.length ≤ 65535 → chunks.flatten = frameEncode cmd payload → s.conn ≠ .closed → endMarker ∉ s.rxbuf →
    s.rxbuf.length + (frameEncode cmd payload).length - 1 ≤ s.cfg.bufCap →
    execAll (chunks.map .rxc) s = .next
      { s with
        rxbuf := []
        ev := s.ev ++ [.frame cmd (BitVec.ofNat 16 payload.length)
          (checksum cmd (BitVec.ofNat 16 payload.length) payload) payload] }

/-- R144: a stream with no end marker fills the buffer byte by byte, and overflows at the first byte after `BUF_CAP`. -/
def Obligations.UnterminatedStreamOverflows : Prop :=
  ∀ (stream rest : List Byte) (b : Byte) (s : State), s.conn ≠ .closed → endMarker ∉ stream → b ≠ endMarker →
    (s.rxbuf.length + stream.length ≤ s.cfg.bufCap →
      exec (.rxc stream) s = .next { s with rxbuf := s.rxbuf ++ stream }) ∧
    (s.rxbuf.length + stream.length = s.cfg.bufCap →
      exec (.rxc (stream ++ b :: rest)) s = .next
        { s with rxbuf := [], conn := .closed, ev := s.ev ++ [.err (.framingOverflow s.cfg.bufCap)] })

/-- R142: reception is the same in UNBOUND and in OPEN: it does not read which of the two holds. -/
def Obligations.ReceptionIgnoresBinding : Prop :=
  ∀ (chunk : List Byte) (s t : State), s.conn = .unbound → exec (.rxc chunk) s = .next t →
    exec (.rxc chunk) { s with conn := .opened } =
      .next { t with conn := if t.conn = .unbound then .opened else t.conn }

/-- The units of the wire, received one by one, do what RXC does with the same bytes (R76, R81, R137; log entry 2). -/
def Obligations.WireUnitsAreReceived : Prop :=
  ∀ (bytes : List Byte) (s : State), execAll (wireUnits bytes) s = exec (.rxc bytes) s

/-- What the arrival of each unit of the wire does (log entry 2): its bytes are stored, or overflow the buffer; an end marker
completes a frame or drops noise; in CLOSED nothing happens. -/
def Obligations.WireUnitResults : Prop :=
  ∀ (u : Instr) (s : State), wellFormed u = true → portOf u = .wire →
    (s.conn = .closed → exec u s = .next s) ∧
    (s.conn ≠ .closed →
      (u ≠ .wireEnd → s.rxbuf.length + (encode u).length ≤ s.cfg.bufCap →
        exec u s = .next { s with rxbuf := s.rxbuf ++ encode u }) ∧
      (u ≠ .wireEnd → s.rxbuf.length ≤ s.cfg.bufCap → s.cfg.bufCap < s.rxbuf.length + (encode u).length →
        exec u s = .next
          { s with rxbuf := [], conn := .closed, ev := s.ev ++ [.err (.framingOverflow s.cfg.bufCap)] }) ∧
      (u = .wireEnd → ∀ noise span : List Byte, s.rxbuf = noise ++ 0x01 :: span → 0x01 ∉ span →
        exec u s = .next { s with rxbuf := [], ev := s.ev ++ [deliverEvent (frameDecode s.cfg.surplus span)] }) ∧
      (u = .wireEnd → 0x01 ∉ s.rxbuf → exec u s = .next { s with rxbuf := [] }))

/-- The classes of the bytes of a span (R76) say what `U` makes of it (R75): no start or end marker lies inside a span that
the reassembler cuts. -/
def Obligations.UnescapeByUnits : Prop :=
  ∀ span : List Byte, startMarker ∉ span → endMarker ∉ span → unescape span = (wireUnits span).flatMap wireValue

/-! ## The connection and RESET -/

/-- R150, R151: BIND opens an unbound connection, and does nothing to an open or a closed one. -/
def Obligations.BindResult : Prop :=
  decodeCommand [0x30] = .ok .bind ∧
  ∀ s : State, (s.conn = .unbound → exec .bind s = .next { s with conn := .opened }) ∧
    (s.conn = .opened ∨ s.conn = .closed → exec .bind s = .next s)

/-- R152: CLOSE closes the connection in every state and empties the buffer; no event, no switch is touched. -/
def Obligations.CloseResult : Prop :=
  decodeCommand [0x31] = .ok .close ∧
  ∀ s : State, exec .close s = .next { s with conn := .closed, rxbuf := [] } ∧
    (s.conn = .closed → s.rxbuf = [] → exec .close s = .next s)

/-- R236: once the connection is closed, nothing received is decoded and nothing sent is written, until RESET. -/
def Obligations.ClosedUntilReset : Prop :=
  ∀ (i : Instr) (s t : State), s.conn = .closed → i ≠ .reset → exec i s = .next t →
    t.conn = .closed ∧ t.txstream = s.txstream ∧
    ((∃ chunk, i = .rxc chunk) → t = s)

/-- R24: who writes `CONN`, and how. -/
def Obligations.ConnWriters : Prop :=
  ∀ (i : Instr) (s t : State), exec i s = .next t → t.conn ≠ s.conn →
    (i = .bind ∧ s.conn = .unbound ∧ t.conn = .opened) ∨ (i = .close ∧ t.conn = .closed) ∨
    (i = .reset ∧ t.conn = .unbound) ∨
    (((∃ chunk, i = .rxc chunk) ∨ portOf i = .wire) ∧ t.conn = .closed ∧ t.rxbuf = [] ∧
      ∃ before cap, t.ev = before ++ [.err (.framingOverflow cap)])

/-- R26: only ENC appends to `TXSTREAM`, one whole frame on an open connection, and nothing removes from it. -/
def Obligations.OnlyEncWrites : Prop :=
  ∀ (i : Instr) (s t : State), exec i s = .next t →
    t.txstream = s.txstream ∨
    ∃ cmd payload, i = .enc cmd payload ∧ s.conn = .opened ∧ t.txstream = s.txstream ++ frameEncode cmd payload

/-- R230, R39: RESET leaves the power-on state of the configuration, but for the output records and the mark (and the model's
own fields, log entries 3, 4 and 6). -/
def Obligations.ResetResult : Prop :=
  decodeCommand [0xFF] = .ok .reset ∧
  ∀ s : State, ∃ t : State, exec .reset s = .next t ∧
    t.conn = .unbound ∧ t.rxbuf = [] ∧ t.sw.length = s.cfg.nsw ∧
    (∀ (k : Nat) (c : CfgInit), s.cfg.cfgInit[k]? = some c → t.sw[k]? = some
      { mode := c.mode, inverted := c.inverted, revertDelay := BitVec.ofNat 16 c.revertDelay
        watchedProp := c.watchedProp, initOn := c.initOn, on := c.initOn
        tmrArmed := false, tmrRemain := 0, trackedValid := false, trackedValue := 0 }) ∧
    t.cfg = s.cfg ∧ t.txstream = s.txstream ∧ t.ev = s.ev ∧ t.refused = s.refused ∧ t.refusedWhy = s.refusedWhy ∧
    t.pending = s.pending ∧ t.turn = s.turn ∧
    t = { State.powerOn s.cfg with
      txstream := s.txstream, ev := s.ev, refused := s.refused, refusedWhy := s.refusedWhy
      pending := s.pending, turn := s.turn }

/-! ## The switch state machine -/

/-- R162 to R165, R170, R175: PEV, in each mode, for an activating and any other value of the watched property, and for another
property; R161 says which values activate. -/
def Obligations.PevResult : Prop :=
  (∀ k prop val : Byte, decodeCommand [0x40, k, prop, val] = .ok (.pev k prop val)) ∧
  (∀ (k prop val : Byte) (s : State), s.sw.length ≤ k.toNat →
    exec (.pev k prop val) s = .next (afterRefusal .badInstance s)) ∧
  ∀ (k prop val : Byte) (w : Switch) (s : State), s.sw[k.toNat]? = some w →
    let seen : Switch := { w with trackedValid := true, trackedValue := val }
    (prop ≠ w.watchedProp → exec (.pev k prop val) s = .next s) ∧
    (prop = w.watchedProp → w.mode = .direct → Activating s.cfg w val →
      exec (.pev k prop val) s = .next (afterAssign k w.on { seen with on := true } s)) ∧
    (prop = w.watchedProp → w.mode = .direct → ¬Activating s.cfg w val →
      exec (.pev k prop val) s = .next (afterAssign k w.on { seen with on := false } s)) ∧
    (prop = w.watchedProp → w.mode = .toggle → Activating s.cfg w val →
      exec (.pev k prop val) s = .next (afterAssign k w.on { seen with on := !w.on } s)) ∧
    (prop = w.watchedProp → w.mode = .momentary → Activating s.cfg w val →
      exec (.pev k prop val) s = .next
        (afterAssign k w.on { seen with on := true, tmrArmed := true, tmrRemain := w.revertDelay } s)) ∧
    (prop = w.watchedProp → w.mode = .toggle ∨ w.mode = .momentary → ¬Activating s.cfg w val →
      exec (.pev k prop val) s = .next { s with sw := s.sw.set k.toNat seen })

/-- R166: TON disarms the timer and turns the switch on; the tracked value stays. -/
def Obligations.TonResult : Prop :=
  ∀ (k : Byte) (s : State), decodeCommand [0x41, k] = .ok (.ton k) ∧
    (∀ w : Switch, s.sw[k.toNat]? = some w →
      exec (.ton k) s = .next (afterAssign k w.on { w with on := true, tmrArmed := false, tmrRemain := 0 } s)) ∧
    (s.sw.length ≤ k.toNat → exec (.ton k) s = .next (afterRefusal .badInstance s))

/-- R167: TOFF disarms the timer, clears the tracked value and turns the switch off. -/
def Obligations.ToffResult : Prop :=
  ∀ (k : Byte) (s : State), decodeCommand [0x42, k] = .ok (.toff k) ∧
    (∀ w : Switch, s.sw[k.toNat]? = some w → exec (.toff k) s = .next (afterAssign k w.on (offSwitch w) s)) ∧
    (s.sw.length ≤ k.toNat → exec (.toff k) s = .next (afterRefusal .badInstance s))

/-- R168: an enabled TEXP does exactly what TOFF does; any other is refused, and changes nothing else. -/
def Obligations.TexpResult : Prop :=
  ∀ (k : Byte) (s : State), decodeCommand [0x44, k] = .ok (.texp k) ∧
    (∀ w : Switch, s.sw[k.toNat]? = some w → w.tmrArmed = true → w.tmrRemain = 0 →
      exec (.texp k) s = .next (afterAssign k w.on (offSwitch w) s) ∧ exec (.texp k) s = exec (.toff k) s) ∧
    (∀ w : Switch, s.sw[k.toNat]? = some w → w.tmrArmed = false ∨ 0 < w.tmrRemain.toNat →
      exec (.texp k) s = .next (afterRefusal .texpNotEnabled s)) ∧
    (s.sw.length ≤ k.toNat → exec (.texp k) s = .next (afterRefusal .badInstance s))

/-- R169: n TICKs count every armed timer down by n, down to 0 and no further, and do nothing else. -/
def Obligations.TicksCountDown : Prop :=
  ∀ (n : Nat) (s : State), ∃ t : State,
    execAll (List.replicate n .tick) s = .next t ∧ t = { s with sw := t.sw } ∧ t.sw.length = s.sw.length ∧
    ∀ (k : Nat) (w : Switch), s.sw[k]? = some w → ∃ w' : Switch, t.sw[k]? = some w' ∧
      w' = { w with tmrRemain := w'.tmrRemain } ∧
      (w.tmrArmed = true → w'.tmrRemain.toNat = w.tmrRemain.toNat - n) ∧
      (w.tmrArmed = false → w'.tmrRemain = w.tmrRemain)

/-- R169: one TICK, as one operation: it always completes, and changes only the remaining time of armed timers. -/
def Obligations.TickResult : Prop :=
  decodeCommand [0x43] = .ok .tick ∧
  ∀ s : State, exec .tick s = .next
    { s with
      sw := s.sw.map (fun w =>
        if w.tmrArmed = true ∧ 0 < w.tmrRemain.toNat then
          { w with tmrRemain := BitVec.ofNat 16 (w.tmrRemain.toNat - 1) } else w) }

/-- R164: in toggle mode two activating events in a row flip the switch twice: the tracked value suppresses nothing, and both
flips are notified. -/
def Obligations.ToggleFlipsTwice : Prop :=
  ∀ (k val : Byte) (w : Switch) (s : State), s.sw[k.toNat]? = some w → w.mode = .toggle → Activating s.cfg w val →
    execAll [.pev k w.watchedProp val, .pev k w.watchedProp val] s = .next
      { s with
        sw := s.sw.set k.toNat { w with trackedValid := true, trackedValue := val }
        ev := s.ev ++ [.notify k (!w.on), .notify k w.on] }

/-- R165, R168, R169, R174 and the source's momentary example (95_test_vectors.md W8), for every delay: an activating event,
n TICKs and then TEXP turn the switch off again exactly when n has reached the delay. -/
def Obligations.MomentaryReverts : Prop :=
  ∀ (k val : Byte) (w : Switch) (n : Nat) (s : State), s.sw[k.toNat]? = some w → w.mode = .momentary →
    Activating s.cfg w val →
    ∃ t : State, execAll (.pev k w.watchedProp val :: (List.replicate n .tick ++ [.texp k])) s = .next t ∧
      (w.revertDelay.toNat ≤ n → t.sw[k.toNat]? = some (offSwitch w) ∧ t.refused = s.refused ∧
        t.ev = s.ev ++ (if s.cfg.renotify = true ∨ w.on = false then [.notify k true] else []) ++ [.notify k false]) ∧
      (n < w.revertDelay.toNat → t.refused = true ∧ t.refusedWhy = some .texpNotEnabled ∧
        t.sw[k.toNat]? = some
          { w with on := true, tmrArmed := true, tmrRemain := w.revertDelay - BitVec.ofNat 16 n
                   trackedValid := true, trackedValue := val } ∧
        t.ev = s.ev ++ (if s.cfg.renotify = true ∨ w.on = false then [.notify k true] else []))

/-- R171: a revert that an explicit command superseded is never taken: after a TON or TOFF, and any TICKs, a TEXP of the
instance changes nothing but the mark. -/
def Obligations.SupersededRevertNeverFires : Prop :=
  ∀ (k : Byte) (w : Switch) (n : Nat) (i : Instr) (s t u : State), s.sw[k.toNat]? = some w →
    i = .ton k ∨ i = .toff k → execAll (i :: List.replicate n .tick) s = .next t →
    exec (.texp k) t = .next u → u = afterRefusal .texpNotEnabled t

/-- R219: an operation on one instance leaves every other instance as it is. -/
def Obligations.InstancesAreIndependent : Prop :=
  ∀ (k prop val : Byte) (i : Instr) (s t : State),
    i ∈ [.pev k prop val, .ton k, .toff k, .texp k] → exec i s = .next t →
    t.sw.length = s.sw.length ∧ ∀ j : Nat, j ≠ k.toNat → t.sw[j]? = s.sw[j]?

/-- R173: the switch operations do the same in every connection state, and do not change it. -/
def Obligations.SwitchesIgnoreConnection : Prop :=
  ∀ (k prop val : Byte) (i : Instr) (c : Conn) (s t : State),
    i ∈ [.pev k prop val, .ton k, .toff k, .tick, .texp k] → exec i s = .next t →
    t.conn = s.conn ∧ exec i { s with conn := c } = .next { t with conn := c }

/-- No transition reads the tracked value (R172): with another one, every operation does the same to everything else. -/
def Obligations.TrackedValueIsNotRead : Prop :=
  ∀ (i : Instr) (s t : State) (k : Nat) (w : Switch) (valid : Bool) (value : Byte), s.sw[k]? = some w →
    exec i s = .next t →
    ∃ t' : State,
      exec i { s with sw := s.sw.set k { w with trackedValid := valid, trackedValue := value } } = .next t' ∧
      t' = { t with sw := t'.sw } ∧
      t'.sw.map (fun x => { x with trackedValid := false, trackedValue := 0 }) =
        t.sw.map (fun x => { x with trackedValid := false, trackedValue := 0 })

/-- What the switch operations leave unchanged: everything but the instances, the mark of a refusal, and the events, to which
at most one notification of the instance is added. -/
def Obligations.SwitchFrame : Prop :=
  ∀ (k prop val : Byte) (i : Instr) (s t : State),
    i ∈ [.pev k prop val, .ton k, .toff k, .tick, .texp k] → exec i s = .next t →
    t.cfg = s.cfg ∧ t.conn = s.conn ∧ t.rxbuf = s.rxbuf ∧ t.txstream = s.txstream ∧ t.pending = s.pending ∧
    t.turn = s.turn ∧ (t.ev = s.ev ∨ ∃ on, t.ev = s.ev ++ [.notify k on]) ∧
    (∀ j : Nat, (t.sw[j]?).map (fun w => (w.mode, w.inverted, w.revertDelay, w.watchedProp, w.initOn)) =
      (s.sw[j]?).map (fun w => (w.mode, w.inverted, w.revertDelay, w.watchedProp, w.initOn))) ∧
    (t.refused = s.refused ∧ t.refusedWhy = s.refusedWhy ∨ ∃ r, t = afterRefusal r s)

/-! ## The register view -/

/-- R34: what every register reads, its bits that are not listed being 0, and that any other number is refused. A free value
stands where the buffer's length does not fit (log entry 5), and reads are inputs (log entry 12), by the model's choice. -/
def Obligations.RegisterViewReads : Prop :=
  ∀ s : State, MachineInv s →
    (∃ v, Reads 0x000 s v ∧ (s.conn = .unbound → v.toNat = 0) ∧ (s.conn = .opened → v.toNat = 1) ∧
      (s.conn = .closed → v.toNat = 2)) ∧
    (∃ v, Reads 0x001 s v ∧ (s.rxbuf.length < 2 ^ 32 → v.toNat = s.rxbuf.length)) ∧
    (∃ v, Reads 0x002 s v ∧ v.toNat =
      (if s.cfg.surplus = .ignore then 1 else 0) + 2 * s.cfg.renotify.toNat + 256 * (s.cfg.nsw - 1)) ∧
    (∃ v, Reads 0x003 s v ∧ v.toNat = min s.cfg.bufCap (2 ^ 32 - 1)) ∧
    (∀ (k : Nat) (w : Switch), s.sw[k]? = some w →
      (∃ v, Reads (0x100 + 4 * k) s v ∧ v.toNat =
        (match w.mode with | .direct => 0 | .toggle => 1 | .momentary => 2 | .reserved => 3) + 4 * w.inverted.toNat +
          8 * w.initOn.toNat + 256 * w.watchedProp.toNat) ∧
      (∃ v, Reads (0x101 + 4 * k) s v ∧ v.toNat = w.revertDelay.toNat) ∧
      (∃ v, Reads (0x102 + 4 * k) s v ∧ v.toNat =
        w.on.toNat + 2 * w.tmrArmed.toNat + 4 * w.trackedValid.toNat + 256 * w.trackedValue.toNat) ∧
      (∃ v, Reads (0x103 + 4 * k) s v ∧ v.toNat = w.tmrRemain.toNat)) ∧
    (∀ num : Nat, (3 < num ∧ num < 0x100) ∨ 0x100 + 4 * s.cfg.nsw ≤ num → regView num s = none) ∧
    ∀ (num : Nat) (rest : List Input), s.pending = .readRegister num :: rest →
      ((regView num s).isSome = true → step s = .next { s with pending := rest }) ∧
      (regView num s = none → step s = .next (afterRefusal .badRegister { s with pending := rest }))

/-- R35: the values that the registers never read, in every state that satisfies the invariant. -/
def Obligations.HardwiredRegisterFields : Prop :=
  ∀ s : State, MachineInv s →
    (∀ v, Reads 0x000 s v → v.extractLsb' 0 2 ≠ 3) ∧
    ∀ k : Nat, k < s.cfg.nsw →
      (∀ v, Reads (0x100 + 4 * k) s v → v.extractLsb' 0 2 ≠ 3) ∧
      (∀ status timer, Reads (0x102 + 4 * k) s status → Reads (0x103 + 4 * k) s timer →
        (status.extractLsb' 1 1 = 0 → timer = 0) ∧ (status.extractLsb' 2 1 = 0 → status.extractLsb' 8 8 = 0))

/-! ## The whole machine -/

/-- Every step keeps the invariant: a well-formed configuration, a buffer within its capacity with no end marker in it (R25,
R135), empty when closed, and switches that agree with their configuration and their timers (R28, R32, R33, R163);
and the mark is set exactly when a refusal is recorded (the model's own record, log entry 6). -/
def Obligations.StepKeepsInv : Prop :=
  ∀ s t : State, MachineInv s → step s = .next t → MachineInv t

/-- The reset state, whose parameters are the model's choice (log entry 1), satisfies the invariant. -/
def Obligations.ResetSatisfiesInv : Prop := MachineInv State.reset

/-- Every well-formed configuration has a start state, and it satisfies the invariant: R232, with the values of R39. -/
def Obligations.PowerOnSatisfiesInv : Prop :=
  ∀ c : Config, configOk c = true → MachineInv (State.powerOn c) ∧
    (State.powerOn c).txstream = [] ∧ (State.powerOn c).ev = [] ∧ (State.powerOn c).refused = false ∧
    (State.powerOn c).conn = .unbound ∧ (State.powerOn c).rxbuf = []

/-- No step changes the configuration (R28), takes back an event or a written byte (R26, R27), or clears the mark (R36). -/
def Obligations.OutputsAndMarkAreKept : Prop :=
  ∀ s t : State, step s = .next t →
    t.cfg = s.cfg ∧ s.ev <+: t.ev ∧ s.txstream <+: t.txstream ∧ (s.refused = true → t.refused = true)

/-- R244, R245: when nothing else is handed to the block, as many steps as there are enabled timers end the run, whichever
timer is chosen at each: every one of them has reverted its switch, and no other switch has changed. That timers act
only when no input waits is the model's choice (log entry 4). -/
def Obligations.EnabledTimersAllFire : Prop :=
  ∀ s : State, MachineInv s → s.pending = [] →
    ∃ t : State, Host.Core.run Sys2Proof.core (enabledTimers s).length s = .next t ∧ runEnded t ∧
      (∀ k ∈ enabledTimers s, t.sw[k]? = (s.sw[k]?).map offSwitch) ∧
      (∀ k : Nat, k ∉ enabledTimers s → t.sw[k]? = s.sw[k]?) ∧
      t.cfg = s.cfg ∧ t.conn = s.conn ∧ t.rxbuf = s.rxbuf ∧ t.txstream = s.txstream ∧ t.refused = s.refused
end

