-- ==== Sys2Proof/Laws/State.lean ====
section
/-! SUPPORT. The small lemmas of the state: what each field is after each named operation of Machine/Ops.lean (and `Deliver`),
so that no later proof unfolds a record update. -/

namespace Sys2Proof.Machine

variable (s : State)

@[simp] theorem emit_cfg (e : Event) : (emit e s).cfg = s.cfg := rfl
@[simp] theorem emit_conn (e : Event) : (emit e s).conn = s.conn := rfl
@[simp] theorem emit_rxbuf (e : Event) : (emit e s).rxbuf = s.rxbuf := rfl
@[simp] theorem emit_txstream (e : Event) : (emit e s).txstream = s.txstream := rfl
@[simp] theorem emit_ev (e : Event) : (emit e s).ev = s.ev ++ [e] := rfl
@[simp] theorem emit_sw (e : Event) : (emit e s).sw = s.sw := rfl
@[simp] theorem emit_refused (e : Event) : (emit e s).refused = s.refused := rfl
@[simp] theorem emit_refusedWhy (e : Event) : (emit e s).refusedWhy = s.refusedWhy := rfl
@[simp] theorem emit_pending (e : Event) : (emit e s).pending = s.pending := rfl
@[simp] theorem emit_turn (e : Event) : (emit e s).turn = s.turn := rfl

@[simp] theorem raise_cfg (e : Err) : (raise e s).cfg = s.cfg := rfl
@[simp] theorem raise_conn (e : Err) : (raise e s).conn = s.conn := rfl
@[simp] theorem raise_rxbuf (e : Err) : (raise e s).rxbuf = s.rxbuf := rfl
@[simp] theorem raise_txstream (e : Err) : (raise e s).txstream = s.txstream := rfl
@[simp] theorem raise_ev (e : Err) : (raise e s).ev = s.ev ++ [.err e] := rfl
@[simp] theorem raise_sw (e : Err) : (raise e s).sw = s.sw := rfl
@[simp] theorem raise_refused (e : Err) : (raise e s).refused = s.refused := rfl
@[simp] theorem raise_refusedWhy (e : Err) : (raise e s).refusedWhy = s.refusedWhy := rfl
@[simp] theorem raise_pending (e : Err) : (raise e s).pending = s.pending := rfl
@[simp] theorem raise_turn (e : Err) : (raise e s).turn = s.turn := rfl

@[simp] theorem refuse_cfg (r : RefuseReason) : (refuse r s).cfg = s.cfg := rfl
@[simp] theorem refuse_conn (r : RefuseReason) : (refuse r s).conn = s.conn := rfl
@[simp] theorem refuse_rxbuf (r : RefuseReason) : (refuse r s).rxbuf = s.rxbuf := rfl
@[simp] theorem refuse_txstream (r : RefuseReason) : (refuse r s).txstream = s.txstream := rfl
@[simp] theorem refuse_ev (r : RefuseReason) : (refuse r s).ev = s.ev := rfl
@[simp] theorem refuse_sw (r : RefuseReason) : (refuse r s).sw = s.sw := rfl
@[simp] theorem refuse_refused (r : RefuseReason) : (refuse r s).refused = true := rfl
@[simp] theorem refuse_refusedWhy (r : RefuseReason) : (refuse r s).refusedWhy = some r := rfl
@[simp] theorem refuse_pending (r : RefuseReason) : (refuse r s).pending = s.pending := rfl
@[simp] theorem refuse_turn (r : RefuseReason) : (refuse r s).turn = s.turn := rfl

@[simp] theorem txWrite_cfg (w : List Byte) : (txWrite w s).cfg = s.cfg := rfl
@[simp] theorem txWrite_conn (w : List Byte) : (txWrite w s).conn = s.conn := rfl
@[simp] theorem txWrite_rxbuf (w : List Byte) : (txWrite w s).rxbuf = s.rxbuf := rfl
@[simp] theorem txWrite_txstream (w : List Byte) : (txWrite w s).txstream = s.txstream ++ w := rfl
@[simp] theorem txWrite_ev (w : List Byte) : (txWrite w s).ev = s.ev := rfl
@[simp] theorem txWrite_sw (w : List Byte) : (txWrite w s).sw = s.sw := rfl
@[simp] theorem txWrite_refused (w : List Byte) : (txWrite w s).refused = s.refused := rfl
@[simp] theorem txWrite_refusedWhy (w : List Byte) : (txWrite w s).refusedWhy = s.refusedWhy := rfl
@[simp] theorem txWrite_pending (w : List Byte) : (txWrite w s).pending = s.pending := rfl
@[simp] theorem txWrite_turn (w : List Byte) : (txWrite w s).turn = s.turn := rfl

@[simp] theorem bufAppend_cfg (b : Byte) : (bufAppend b s).cfg = s.cfg := rfl
@[simp] theorem bufAppend_conn (b : Byte) : (bufAppend b s).conn = s.conn := rfl
@[simp] theorem bufAppend_rxbuf (b : Byte) : (bufAppend b s).rxbuf = s.rxbuf ++ [b] := rfl
@[simp] theorem bufAppend_txstream (b : Byte) : (bufAppend b s).txstream = s.txstream := rfl
@[simp] theorem bufAppend_ev (b : Byte) : (bufAppend b s).ev = s.ev := rfl
@[simp] theorem bufAppend_sw (b : Byte) : (bufAppend b s).sw = s.sw := rfl
@[simp] theorem bufAppend_refused (b : Byte) : (bufAppend b s).refused = s.refused := rfl
@[simp] theorem bufAppend_refusedWhy (b : Byte) : (bufAppend b s).refusedWhy = s.refusedWhy := rfl
@[simp] theorem bufAppend_pending (b : Byte) : (bufAppend b s).pending = s.pending := rfl
@[simp] theorem bufAppend_turn (b : Byte) : (bufAppend b s).turn = s.turn := rfl

@[simp] theorem bufClear_cfg : (bufClear s).cfg = s.cfg := rfl
@[simp] theorem bufClear_conn : (bufClear s).conn = s.conn := rfl
@[simp] theorem bufClear_rxbuf : (bufClear s).rxbuf = [] := rfl
@[simp] theorem bufClear_txstream : (bufClear s).txstream = s.txstream := rfl
@[simp] theorem bufClear_ev : (bufClear s).ev = s.ev := rfl
@[simp] theorem bufClear_sw : (bufClear s).sw = s.sw := rfl
@[simp] theorem bufClear_refused : (bufClear s).refused = s.refused := rfl
@[simp] theorem bufClear_refusedWhy : (bufClear s).refusedWhy = s.refusedWhy := rfl
@[simp] theorem bufClear_pending : (bufClear s).pending = s.pending := rfl
@[simp] theorem bufClear_turn : (bufClear s).turn = s.turn := rfl

@[simp] theorem setConn_cfg (c : Conn) : (setConn c s).cfg = s.cfg := rfl
@[simp] theorem setConn_conn (c : Conn) : (setConn c s).conn = c := rfl
@[simp] theorem setConn_rxbuf (c : Conn) : (setConn c s).rxbuf = s.rxbuf := rfl
@[simp] theorem setConn_txstream (c : Conn) : (setConn c s).txstream = s.txstream := rfl
@[simp] theorem setConn_ev (c : Conn) : (setConn c s).ev = s.ev := rfl
@[simp] theorem setConn_sw (c : Conn) : (setConn c s).sw = s.sw := rfl
@[simp] theorem setConn_refused (c : Conn) : (setConn c s).refused = s.refused := rfl
@[simp] theorem setConn_refusedWhy (c : Conn) : (setConn c s).refusedWhy = s.refusedWhy := rfl
@[simp] theorem setConn_pending (c : Conn) : (setConn c s).pending = s.pending := rfl
@[simp] theorem setConn_turn (c : Conn) : (setConn c s).turn = s.turn := rfl

@[simp] theorem putSwitch_cfg (k : Byte) (w : Switch) : (putSwitch k w s).cfg = s.cfg := rfl
@[simp] theorem putSwitch_conn (k : Byte) (w : Switch) : (putSwitch k w s).conn = s.conn := rfl
@[simp] theorem putSwitch_rxbuf (k : Byte) (w : Switch) : (putSwitch k w s).rxbuf = s.rxbuf := rfl
@[simp] theorem putSwitch_txstream (k : Byte) (w : Switch) : (putSwitch k w s).txstream = s.txstream := rfl
@[simp] theorem putSwitch_ev (k : Byte) (w : Switch) : (putSwitch k w s).ev = s.ev := rfl
@[simp] theorem putSwitch_sw (k : Byte) (w : Switch) : (putSwitch k w s).sw = s.sw.set k.toNat w := rfl
@[simp] theorem putSwitch_refused (k : Byte) (w : Switch) : (putSwitch k w s).refused = s.refused := rfl
@[simp] theorem putSwitch_refusedWhy (k : Byte) (w : Switch) : (putSwitch k w s).refusedWhy = s.refusedWhy := rfl
@[simp] theorem putSwitch_pending (k : Byte) (w : Switch) : (putSwitch k w s).pending = s.pending := rfl
@[simp] theorem putSwitch_turn (k : Byte) (w : Switch) : (putSwitch k w s).turn = s.turn := rfl

@[simp] theorem deliver_cfg (r : DecodeResult) : (deliver r s).cfg = s.cfg := rfl
@[simp] theorem deliver_conn (r : DecodeResult) : (deliver r s).conn = s.conn := rfl
@[simp] theorem deliver_rxbuf (r : DecodeResult) : (deliver r s).rxbuf = s.rxbuf := rfl
@[simp] theorem deliver_txstream (r : DecodeResult) : (deliver r s).txstream = s.txstream := rfl
@[simp] theorem deliver_ev (r : DecodeResult) : (deliver r s).ev = s.ev ++ [deliverEvent r] := rfl
@[simp] theorem deliver_sw (r : DecodeResult) : (deliver r s).sw = s.sw := rfl
@[simp] theorem deliver_refused (r : DecodeResult) : (deliver r s).refused = s.refused := rfl
@[simp] theorem deliver_refusedWhy (r : DecodeResult) : (deliver r s).refusedWhy = s.refusedWhy := rfl
@[simp] theorem deliver_pending (r : DecodeResult) : (deliver r s).pending = s.pending := rfl
@[simp] theorem deliver_turn (r : DecodeResult) : (deliver r s).turn = s.turn := rfl

/-! ## The power-on state -/

section PowerOn

variable (c : Config)

@[simp] theorem powerOn_cfg : (State.powerOn c).cfg = c := rfl
@[simp] theorem powerOn_conn : (State.powerOn c).conn = .unbound := rfl
@[simp] theorem powerOn_rxbuf : (State.powerOn c).rxbuf = [] := rfl
@[simp] theorem powerOn_txstream : (State.powerOn c).txstream = [] := rfl
@[simp] theorem powerOn_ev : (State.powerOn c).ev = [] := rfl
@[simp] theorem powerOn_sw : (State.powerOn c).sw = c.cfgInit.map Switch.ofInit := rfl
@[simp] theorem powerOn_refused : (State.powerOn c).refused = false := rfl
@[simp] theorem powerOn_refusedWhy : (State.powerOn c).refusedWhy = none := rfl
@[simp] theorem powerOn_pending : (State.powerOn c).pending = [] := rfl
@[simp] theorem powerOn_turn : (State.powerOn c).turn = 0 := rfl

end PowerOn

/-! ## The registers of an instance -/

section SwitchUpdates

variable (w : Switch) (val : Byte)

@[simp] theorem disarm_mode : (disarm w).mode = w.mode := rfl
@[simp] theorem disarm_inverted : (disarm w).inverted = w.inverted := rfl
@[simp] theorem disarm_revertDelay : (disarm w).revertDelay = w.revertDelay := rfl
@[simp] theorem disarm_watchedProp : (disarm w).watchedProp = w.watchedProp := rfl
@[simp] theorem disarm_initOn : (disarm w).initOn = w.initOn := rfl
@[simp] theorem disarm_on : (disarm w).on = w.on := rfl
@[simp] theorem disarm_tmrArmed : (disarm w).tmrArmed = false := rfl
@[simp] theorem disarm_tmrRemain : (disarm w).tmrRemain = 0 := rfl
@[simp] theorem disarm_trackedValid : (disarm w).trackedValid = w.trackedValid := rfl
@[simp] theorem disarm_trackedValue : (disarm w).trackedValue = w.trackedValue := rfl

@[simp] theorem arm_mode : (arm w).mode = w.mode := rfl
@[simp] theorem arm_inverted : (arm w).inverted = w.inverted := rfl
@[simp] theorem arm_revertDelay : (arm w).revertDelay = w.revertDelay := rfl
@[simp] theorem arm_watchedProp : (arm w).watchedProp = w.watchedProp := rfl
@[simp] theorem arm_initOn : (arm w).initOn = w.initOn := rfl
@[simp] theorem arm_on : (arm w).on = w.on := rfl
@[simp] theorem arm_tmrArmed : (arm w).tmrArmed = true := rfl
@[simp] theorem arm_tmrRemain : (arm w).tmrRemain = w.revertDelay := rfl
@[simp] theorem arm_trackedValid : (arm w).trackedValid = w.trackedValid := rfl
@[simp] theorem arm_trackedValue : (arm w).trackedValue = w.trackedValue := rfl

@[simp] theorem track_mode : (track val w).mode = w.mode := rfl
@[simp] theorem track_inverted : (track val w).inverted = w.inverted := rfl
@[simp] theorem track_revertDelay : (track val w).revertDelay = w.revertDelay := rfl
@[simp] theorem track_watchedProp : (track val w).watchedProp = w.watchedProp := rfl
@[simp] theorem track_initOn : (track val w).initOn = w.initOn := rfl
@[simp] theorem track_on : (track val w).on = w.on := rfl
@[simp] theorem track_tmrArmed : (track val w).tmrArmed = w.tmrArmed := rfl
@[simp] theorem track_tmrRemain : (track val w).tmrRemain = w.tmrRemain := rfl
@[simp] theorem track_trackedValid : (track val w).trackedValid = true := rfl
@[simp] theorem track_trackedValue : (track val w).trackedValue = val := rfl

@[simp] theorem untrack_mode : (untrack w).mode = w.mode := rfl
@[simp] theorem untrack_inverted : (untrack w).inverted = w.inverted := rfl
@[simp] theorem untrack_revertDelay : (untrack w).revertDelay = w.revertDelay := rfl
@[simp] theorem untrack_watchedProp : (untrack w).watchedProp = w.watchedProp := rfl
@[simp] theorem untrack_initOn : (untrack w).initOn = w.initOn := rfl
@[simp] theorem untrack_on : (untrack w).on = w.on := rfl
@[simp] theorem untrack_tmrArmed : (untrack w).tmrArmed = w.tmrArmed := rfl
@[simp] theorem untrack_tmrRemain : (untrack w).tmrRemain = w.tmrRemain := rfl
@[simp] theorem untrack_trackedValid : (untrack w).trackedValid = false := rfl
@[simp] theorem untrack_trackedValue : (untrack w).trackedValue = 0 := rfl

end SwitchUpdates

end Sys2Proof.Machine
end

