-- ==== Sys2Proof/Laws/Ops.lean ====
section
/-! SUPPORT. One lemma for each shared operation, that says everything it can do: the operand forms, the switch assignments,
the reception of bytes, and one turn of the block. Later proofs cite these instead of unfolding the operations. -/

namespace Sys2Proof.Machine

/-! ## Operands and switch assignments -/

theorem withSwitch_some {k : Byte} {s : State} {w : Switch} (h : s.sw[k.toNat]? = some w)
    (f : Switch → Host.Outcome State Fault Refusal) : withSwitch k s f = f w := by
  simp [withSwitch, switchAt, h]

theorem withSwitch_none {k : Byte} {s : State} (h : s.sw.length ≤ k.toNat)
    (f : Switch → Host.Outcome State Fault Refusal) : withSwitch k s f = .next (refuse .badInstance s) := by
  simp [withSwitch, switchAt, h]

/-- An operation on an instance either runs on its registers or is refused. -/
theorem withSwitch_cases (k : Byte) (s : State) (f : Switch → Host.Outcome State Fault Refusal) :
    (∃ w, s.sw[k.toNat]? = some w ∧ withSwitch k s f = f w) ∨
      (s.sw.length ≤ k.toNat ∧ withSwitch k s f = .next (refuse .badInstance s)) := by
  rcases hk : s.sw[k.toNat]? with _ | w
  · exact .inr ⟨by simpa using hk, withSwitch_none (by simpa using hk) f⟩
  · exact .inl ⟨w, rfl, withSwitch_some hk f⟩

theorem active_iff (c : Config) (w : Switch) (val : Byte) : active c w val = true ↔ Activating c w val := by
  unfold active Activating; split <;> simp

theorem assign_eq (k : Byte) (v : Bool) (w : Switch) (s : State) :
    assign k v w s = afterAssign k w.on { w with on := v } s := by
  unfold assign afterAssign notifies emit putSwitch
  cases s.cfg.renotify <;> cases w.on <;> cases v <;> simp

theorem turnOff_eq (k : Byte) (w : Switch) (s : State) : turnOff k w s = afterAssign k w.on (offSwitch w) s :=
  assign_eq k false (untrack (disarm w)) s

theorem refuse_eq (r : RefuseReason) (s : State) : refuse r s = afterRefusal r s := rfl

theorem texpEnabled_iff (w : Switch) : texpEnabled w = true ↔ w.tmrArmed = true ∧ w.tmrRemain = 0 := by
  simp [texpEnabled]

/-! ## Reception -/

@[simp] theorem receive_nil (s : State) : receive [] s = s := rfl

theorem receive_closed {s : State} (h : s.conn = .closed) (l : List Byte) : receive l s = s := by
  cases l <;> simp [receive, h]

theorem receive_cons {s : State} (h : s.conn ≠ .closed) (b : Byte) (l : List Byte) :
    receive (b :: l) s = receive l (pushByte b s) := by simp [receive, h]

/-- Receiving is byte by byte: a chunk may be cut anywhere. -/
theorem receive_append (l r : List Byte) (s : State) : receive (l ++ r) s = receive r (receive l s) := by
  induction l generalizing s with
  | nil => rfl
  | cons b l ih =>
    by_cases h : s.conn = .closed
    · simp [receive_closed h]
    · simp [receive_cons h, ih]

theorem afterLastStart_none {l : List Byte} (h : startMarker ∉ l) : afterLastStart l = none := by
  induction l with
  | nil => rfl
  | cons b l ih =>
    have hb : b ≠ startMarker := fun e => h (by simp [e])
    simp [afterLastStart, ih (fun m => h (by simp [m])), hb]

/-- The span that is decoded is the one after the last start marker, whatever stands before it (R131, R138). -/
theorem afterLastStart_some (noise : List Byte) {span : List Byte} (h : startMarker ∉ span) :
    afterLastStart (noise ++ startMarker :: span) = some span := by
  induction noise with
  | nil => simp [afterLastStart, afterLastStart_none h]
  | cons b l ih => simp [afterLastStart, ih]

/-- What one byte does to a connection that is not closed: it ends a frame or noise, overflows, or is stored. -/
theorem pushByte_cases (b : Byte) (s : State) :
    (b = endMarker ∧ ∃ evs, pushByte b s = { s with rxbuf := [], ev := s.ev ++ evs }) ∨
    (b ≠ endMarker ∧ s.rxbuf.length = s.cfg.bufCap ∧ pushByte b s = overflow s) ∨
    (b ≠ endMarker ∧ s.rxbuf.length ≠ s.cfg.bufCap ∧ pushByte b s = bufAppend b s) := by
  by_cases hb : b = endMarker
  · refine .inl ⟨hb, ?_⟩
    rcases h : afterLastStart s.rxbuf with _ | span
    · exact ⟨[], by simp [pushByte, hb, endOfFrame, h, bufClear]⟩
    · exact ⟨[deliverEvent (frameDecode s.cfg.surplus span)], by simp [pushByte, hb, endOfFrame, h, bufClear, deliver, emit]⟩
  · by_cases hl : s.rxbuf.length = s.cfg.bufCap
    · exact .inr (.inl ⟨hb, hl, by simp [pushByte, hb, hl]⟩)
    · exact .inr (.inr ⟨hb, hl, by simp [pushByte, hb, hl]⟩)

theorem pushByte_end_some {s : State} {noise span : List Byte} (hr : s.rxbuf = noise ++ startMarker :: span)
    (h : startMarker ∉ span) :
    pushByte endMarker s =
      { s with rxbuf := [], ev := s.ev ++ [deliverEvent (frameDecode s.cfg.surplus span)] } := by
  simp [pushByte, endOfFrame, hr, afterLastStart_some noise h, bufClear, deliver, emit]

theorem pushByte_end_none {s : State} (h : startMarker ∉ s.rxbuf) : pushByte endMarker s = { s with rxbuf := [] } := by
  simp [pushByte, endOfFrame, afterLastStart_none h, bufClear]

theorem pushByte_full {b : Byte} {s : State} (hb : b ≠ endMarker) (h : s.rxbuf.length = s.cfg.bufCap) :
    pushByte b s =
      { s with rxbuf := [], conn := .closed, ev := s.ev ++ [.err (.framingOverflow s.cfg.bufCap)] } := by
  simp [pushByte, hb, h, overflow, setConn, bufClear, raise, emit]

theorem pushByte_fits {b : Byte} {s : State} (hb : b ≠ endMarker) (h : s.rxbuf.length ≠ s.cfg.bufCap) :
    pushByte b s = { s with rxbuf := s.rxbuf ++ [b] } := by
  simp [pushByte, hb, h, bufAppend]

/-- What receiving can change: the buffer, the events (by adding some) and the connection (by closing it). -/
theorem receive_frame (l : List Byte) (s : State) : ∃ (buf : List Byte) (evs : List Event) (c : Conn),
    receive l s = { s with rxbuf := buf, ev := s.ev ++ evs, conn := c } ∧ (c = s.conn ∨ (c = .closed ∧ buf = [])) := by
  induction l generalizing s with
  | nil => exact ⟨s.rxbuf, [], s.conn, by simp, .inl rfl⟩
  | cons b l ih =>
    by_cases h : s.conn = .closed
    · exact ⟨s.rxbuf, [], s.conn, by simp [receive_closed h], .inl rfl⟩
    rw [receive_cons h]
    rcases pushByte_cases b s with ⟨-, evs, e⟩ | ⟨hb, hl, -⟩ | ⟨-, -, e⟩
    · obtain ⟨buf, evs', c, e', hc⟩ := ih (pushByte b s)
      rw [e'] ; rw [e] at hc ⊢
      exact ⟨buf, evs ++ evs', c, by simp, hc⟩
    · rw [pushByte_full hb hl, receive_closed rfl]
      exact ⟨[], _, .closed, rfl, .inr ⟨rfl, rfl⟩⟩
    · obtain ⟨buf, evs', c, e', hc⟩ := ih (pushByte b s)
      rw [e'] ; rw [e] at hc ⊢
      exact ⟨buf, evs', c, by simp [bufAppend], hc⟩

/-- Every receiving operation is `receive` of its bytes. -/
theorem exec_receive {i : Instr} (h : (∃ chunk, i = .rxc chunk) ∨ portOf i = .wire) (s : State) :
    ∃ l, exec i s = .next (receive l s) := by
  rcases h with ⟨chunk, rfl⟩ | h
  · exact ⟨chunk, rfl⟩
  · cases i <;> first | exact ⟨_, rfl⟩ | simp [portOf] at h

/-- A unit of the wire is received as its bytes are. -/
theorem exec_wire {i : Instr} (h : portOf i = .wire) (s : State) : exec i s = .next (receive (encode i) s) := by
  cases i with
  | wireEsc next => cases next <;> rfl
  | wireStart | wireEnd | wireEscapedPair _ | wireLiteral _ | wireRawLow _ => rfl
  | _ => simp [portOf] at h

/-! ## One turn -/

/-- The timer that is chosen is one of those enabled. -/
theorem chosenTimer_mem (turn first : Nat) (others : List Nat) : chosenTimer turn first others ∈ first :: others := by
  unfold chosenTimer
  have h : Config.timerChoice turn % (others.length + 1) < (first :: others).length := Nat.mod_lt _ (by simp)
  rw [List.getD_eq_getElem _ _ h]
  exact List.getElem_mem h

theorem mem_enabledTimers {s : State} {k : Nat} :
    k ∈ enabledTimers s ↔ ∃ w, s.sw[k]? = some w ∧ w.tmrArmed = true ∧ w.tmrRemain = 0 := by
  simp only [enabledTimers, List.mem_filter, List.mem_range, Option.any_eq_true, texpEnabled_iff]
  exact ⟨fun ⟨_, h⟩ => h, fun ⟨w, h, e⟩ => ⟨(List.getElem?_eq_some_iff.mp h).1, w, h, e⟩⟩

/-- What a turn of the timers is: nothing where none is enabled, else an enabled TEXP. -/
theorem timersTurn_cases (s : State) :
    (enabledTimers s = [] ∧ timersTurn s = .next s) ∨
    ∃ k ∈ enabledTimers s, timersTurn s = exec (.texp (BitVec.ofNat 8 k)) { s with turn := s.turn + 1 } := by
  unfold timersTurn
  split
  · next h => exact .inl ⟨h, rfl⟩
  · next k ks h => exact .inr ⟨_, h ▸ chosenTimer_mem s.turn k ks, rfl⟩

/-- Everything a step can do when it answers a next state: take an input that runs an operation, is refused or only read, or
leave the turn to the timers. -/
theorem step_cases {s t : State} (h : step s = .next t) :
    configOk s.cfg = true ∧
    ((∃ (i : Instr) (inputs : List Input) (turn : Nat), exec i { s with pending := inputs, turn := turn } = .next t) ∨
      (∃ (r : RefuseReason) (inputs : List Input), t = refuse r { s with pending := inputs }) ∨
      ∃ inputs : List Input, t = { s with pending := inputs }) := by
  unfold step at h
  split at h
  case isFalse => simp at h
  case isTrue hc =>
    refine ⟨hc, ?_⟩
    unfold takeTurn at h
    split at h
    · next hp =>
      rcases timersTurn_cases s with ⟨-, e⟩ | ⟨k, -, e⟩
      · rw [e] at h; cases h
        exact .inr (.inr ⟨s.pending, rfl⟩)
      · exact .inl ⟨_, s.pending, _, e ▸ h⟩
    · next inp rest hp =>
      unfold perform at h
      split at h
      · unfold performCommand at h
        split at h
        · cases h; exact .inr (.inl ⟨_, rest, rfl⟩)
        · split at h
          · exact .inl ⟨_, rest, s.turn, h⟩
          · simp at h
      · unfold performWire at h
        split at h
        · cases h; exact .inr (.inr ⟨rest, rfl⟩)
        · next i more _ =>
          cases more with
          | nil => exact .inl ⟨i, rest, s.turn, h⟩
          | cons b more => exact .inl ⟨i, .wire (b :: more) :: rest, s.turn, h⟩
      · unfold performSend at h
        split at h
        · exact .inl ⟨_, rest, s.turn, h⟩
        · cases h; exact .inr (.inl ⟨_, rest, rfl⟩)
      · cases h; exact .inr (.inl ⟨_, rest, rfl⟩)
      · cases h; exact .inr (.inl ⟨_, rest, rfl⟩)
      · cases h
        unfold readRegister
        split
        · exact .inr (.inr ⟨rest, rfl⟩)
        · exact .inr (.inl ⟨_, rest, rfl⟩)

end Sys2Proof.Machine
end

