-- ==== Sys2Proof/Laws/PerInstr.lean ====
section
/-! SUPPORT. Statements made per instruction. `WordShape`: the bytes of every instruction have the length of its row in
30_encoding.md R80 (or of its wire class, R76) and begin with the row's opcode byte; a wire class has no opcode, and its first
byte is none of the marker values unless the class is that marker's. -/

namespace Sys2Proof.Laws.WordShape

open Sys2Proof

/-- The bytes of an instruction have the shape of its row of the opcode table. -/
def Statement : Instr → Prop
  | .enc cmd payload => (encode (.enc cmd payload)).length = 5 + payload.length ∧ (encode (.enc cmd payload)).head? = some 0x10
  | .dec span => (encode (.dec span)).length = 3 + span.length ∧ (encode (.dec span)).head? = some 0x11
  | .rxc chunk => (encode (.rxc chunk)).length = 3 + chunk.length ∧ (encode (.rxc chunk)).head? = some 0x20
  | .bind => encode .bind = [0x30]
  | .close => encode .close = [0x31]
  | .pev k prop val => encode (.pev k prop val) = [0x40, k, prop, val]
  | .ton k => encode (.ton k) = [0x41, k]
  | .toff k => encode (.toff k) = [0x42, k]
  | .tick => encode .tick = [0x43]
  | .texp k => encode (.texp k) = [0x44, k]
  | .reset => encode .reset = [0xFF]
  | .wireStart => encode .wireStart = [0x01]
  | .wireEsc next => encode (.wireEsc next) = 0x02 :: next.toList
  | .wireEnd => encode .wireEnd = [0x03]
  | .wireEscapedPair e => encode (.wireEscapedPair e) = [0x02, e]
  | .wireLiteral b => encode (.wireLiteral b) = [b] ∧ (wellFormed (.wireLiteral b) = true → 0x10 ≤ b)
  | .wireRawLow b => encode (.wireRawLow b) = [b] ∧ (wellFormed (.wireRawLow b) = true → b < 0x10 ∧ b ∉ [0x01, 0x02, 0x03])

theorem enc (cmd : Word16) (payload : List Byte) : Statement (.enc cmd payload) := by
  simp [Statement, encode, be16, countBytes]; omega

theorem dec (span : List Byte) : Statement (.dec span) := by
  simp [Statement, encode, be16, countBytes]; omega

theorem rxc (chunk : List Byte) : Statement (.rxc chunk) := by
  simp [Statement, encode, be16, countBytes]; omega

theorem bind : Statement .bind := rfl

theorem close : Statement .close := rfl

theorem pev (k prop val : Byte) : Statement (.pev k prop val) := rfl

theorem ton (k : Byte) : Statement (.ton k) := rfl

theorem toff (k : Byte) : Statement (.toff k) := rfl

theorem tick : Statement .tick := rfl

theorem texp (k : Byte) : Statement (.texp k) := rfl

theorem reset : Statement .reset := rfl

theorem wireStart : Statement .wireStart := rfl

theorem wireEsc (next : Option Byte) : Statement (.wireEsc next) := by cases next <;> rfl

theorem wireEnd : Statement .wireEnd := rfl

theorem wireEscapedPair (e : Byte) : Statement (.wireEscapedPair e) := rfl

theorem wireLiteral (b : Byte) : Statement (.wireLiteral b) := ⟨rfl, fun h => by simpa [wellFormed] using h⟩

theorem wireRawLow (b : Byte) : Statement (.wireRawLow b) := by
  refine ⟨rfl, fun h => ?_⟩
  simp [wellFormed, startMarker, escMarker, endMarker] at h
  simp [h]

end Sys2Proof.Laws.WordShape
end

