-- ==== Sys2Proof/Tests/Slice0.lean ====
section
/-! SUPPORT. The model's own tests. Expected results are those of spec/95_test_vectors.md (V-..), or are worked out by hand
from the rule named. A theorem test_hyps_<Name> shows that the hypotheses of Obligations.<Name> can be met together. -/

namespace Sys2Proof.Tests

open Sys2Proof Sys2Proof.Machine

/-! ## Small states -/

/-- The configuration of 95_test_vectors.md with one instance. -/
def cfgOf (mode : Mode) (inverted : Bool) (delay : Nat) (prop : Byte) : Config :=
  { Config.default with cfgInit := [{ mode := mode, inverted := inverted, revertDelay := delay, watchedProp := prop }] }

/-- The state after RESET with one instance (V-S). -/
def start (mode : Mode) (inverted : Bool) (delay : Nat) (prop : Byte) : State :=
  State.powerOn (cfgOf mode inverted delay prop)

/-- `s` with the registers `(ON, ARMED, REMAIN, TRACKED_VALID, TRACKED_VALUE)` of its one instance. -/
def withSw (s : State) (on armed : Bool) (remain : Word16) (tv : Bool) (val : Byte) : State :=
  { s with
    sw := s.sw.map (fun w =>
      { w with on := on, tmrArmed := armed, tmrRemain := remain, trackedValid := tv, trackedValue := val }) }

/-- A state with BUF_CAP = 4 (V-R11). -/
def cap4 (buf : List Byte) : State :=
  { State.powerOn { Config.default with bufCap := 4 } with rxbuf := buf }

/-- The next state of an outcome. -/
def after : Host.Outcome State Fault Refusal → Option State
  | .next t => some t
  | .fault _ => none
  | .refused _ => none

/-- The refusal of an outcome. -/
def stop : Host.Outcome State Fault Refusal → Option Refusal
  | .next _ => none
  | .fault _ => none
  | .refused r => some r

/-- The events after an outcome. -/
def evs (o : Host.Outcome State Fault Refusal) : Option (List Event) := (after o).map (fun t => t.ev)

/-- The buffer and the connection after an outcome. -/
def bufConn (o : Host.Outcome State Fault Refusal) : Option (List Byte × Conn) :=
  (after o).map (fun t => (t.rxbuf, t.conn))

/-- The registers of instance 0, in the order of V-S, and the events. -/
structure SwView where
  on : Bool
  armed : Bool
  remain : Word16
  valid : Bool
  value : Byte
  ev : List Event
deriving DecidableEq, Repr

/-- The registers of instance 0 and the events after an outcome. -/
def swEv (o : Host.Outcome State Fault Refusal) : Option SwView :=
  (after o).bind (fun t => t.sw.head?.map (fun w =>
    ⟨w.on, w.tmrArmed, w.tmrRemain, w.trackedValid, w.trackedValue, t.ev⟩))

/-- The mark and its reason after an outcome. -/
def mark (o : Host.Outcome State Fault Refusal) : Option (Bool × Option RefuseReason) :=
  (after o).map (fun t => (t.refused, t.refusedWhy))

/-- `s` with one command word waiting. -/
def given (a : Agent) (word : List Byte) (s : State) : State := { s with pending := [.command a word] }

/-- The frame of V-E01. -/
def f1 : List Byte := [0x01, 0x02, 0x10, 0x10, 0x02, 0x10, 0x02, 0x10, 0x10, 0x03]

/-- `State.reset` in OPEN. -/
def opened : State := { State.reset with conn := .opened }

/-- `State.reset` in CLOSED. -/
def closed : State := { State.reset with conn := .closed }

/-! ## WellFormed refuses an ill-formed term of each check -/

theorem test_wf_enc : wellFormed (.enc 0 (List.replicate 65536 0)) = false := by
  rw [wellFormed, List.length_replicate]; decide
theorem test_wf_dec : wellFormed (.dec (List.replicate 65536 0)) = false := by
  rw [wellFormed, List.length_replicate]; decide
theorem test_wf_rxc : wellFormed (.rxc (List.replicate 65536 0)) = false := by
  rw [wellFormed, List.length_replicate]; decide
theorem test_wf_enc_longest : wellFormed (.enc 0 (List.replicate 65535 0)) = true := by
  rw [wellFormed, List.length_replicate]; decide
theorem test_wf_wire :
    wellFormed (.wireEscapedPair 0x0F) = false ∧ wellFormed (.wireEscapedPair 0x20) = false ∧
    wellFormed (.wireEsc (some 0x10)) = false ∧ wellFormed (.wireEsc (some 0x1F)) = false ∧
    wellFormed (.wireEsc (some 0x01)) = false ∧ wellFormed (.wireEsc (some 0x03)) = false ∧
    wellFormed (.wireLiteral 0x0F) = false ∧ wellFormed (.wireRawLow 0x10) = false ∧
    wellFormed (.wireRawLow 0x01) = false ∧ wellFormed (.wireRawLow 0x02) = false ∧
    wellFormed (.wireRawLow 0x03) = false := by decide

/-! ## Decoding, from words written out by hand (30_encoding.md R76, R80; V-P) -/

theorem test_decode_enc : decodeCommand [0x10, 0x00, 0x10, 0x00, 0x00] = .ok (.enc 0x0010 []) := by rfl
theorem test_decode_enc_payload :
    decodeCommand [0x10, 0xAB, 0xCD, 0x00, 0x03, 0x10, 0x20, 0x30] = .ok (.enc 0xABCD [0x10, 0x20, 0x30]) := by rfl
theorem test_decode_dec :
    decodeCommand [0x11, 0x00, 0x08, 0x02, 0x10, 0x10, 0x02, 0x10, 0x02, 0x10, 0x10] =
      .ok (.dec [0x02, 0x10, 0x10, 0x02, 0x10, 0x02, 0x10, 0x10]) := by rfl
theorem test_decode_rxc : decodeCommand ([0x20, 0x00, 0x0A] ++ f1) = .ok (.rxc f1) := by rfl
theorem test_decode_bind : decodeCommand [0x30] = .ok .bind := by rfl
theorem test_decode_close : decodeCommand [0x31] = .ok .close := by rfl
theorem test_decode_pev : decodeCommand [0x40, 0x00, 0x01, 0x01] = .ok (.pev 0 propEvent valPresence) := by rfl
theorem test_decode_ton : decodeCommand [0x41, 0x00] = .ok (.ton 0) := by rfl
theorem test_decode_toff : decodeCommand [0x42, 0x00] = .ok (.toff 0) := by rfl
theorem test_decode_tick : decodeCommand [0x43] = .ok .tick := by rfl
theorem test_decode_texp : decodeCommand [0x44, 0x00] = .ok (.texp 0) := by rfl
theorem test_decode_reset : decodeCommand [0xFF] = .ok .reset := by rfl
theorem test_decode_count_is_big_endian :
    decodeCommand [0x20, 0x01, 0x00, 0x55] = .error .badLength ∧
    decodeCommand [0x20, 0x00, 0x01, 0x55] = .ok (.rxc [0x55]) := ⟨rfl, rfl⟩
theorem test_decode_wire_units :
    decodeWire [0x01, 0x55] = some (.wireStart, [0x55]) ∧
    decodeWire [0x02, 0x1A, 0x55] = some (.wireEscapedPair 0x1A, [0x55]) ∧
    decodeWire [0x02, 0x41, 0x55] = some (.wireEsc (some 0x41), [0x55]) ∧
    decodeWire [0x02, 0x03] = some (.wireEsc none, [0x03]) ∧
    decodeWire [0x02] = some (.wireEsc none, []) ∧
    decodeWire [0x03, 0x55] = some (.wireEnd, [0x55]) ∧
    decodeWire [0x10, 0x55] = some (.wireLiteral 0x10, [0x55]) ∧
    decodeWire [0xFF] = some (.wireLiteral 0xFF, []) ∧
    decodeWire [0x04, 0x55] = some (.wireRawLow 0x04, [0x55]) ∧
    decodeWire [0x00] = some (.wireRawLow 0x00, []) := by decide
theorem test_table_words :
    decodeTableWord 8 0x10 = some (.enc 0 []) ∧ decodeTableWord 8 0x11 = some (.dec []) ∧
    decodeTableWord 8 0x20 = some (.rxc []) ∧ decodeTableWord 8 0x30 = some .bind ∧
    decodeTableWord 8 0x31 = some .close ∧ decodeTableWord 8 0x40 = some (.pev 0 0 0) ∧
    decodeTableWord 8 0x41 = some (.ton 0) ∧ decodeTableWord 8 0x42 = some (.toff 0) ∧
    decodeTableWord 8 0x43 = some .tick ∧ decodeTableWord 8 0x44 = some (.texp 0) ∧
    decodeTableWord 8 0xFF = some .reset ∧ decodeTableWord 8 0x01 = some .wireStart ∧
    decodeTableWord 8 0x02 = some (.wireEsc none) ∧ decodeTableWord 8 0x03 = some .wireEnd ∧
    decodeTableWord 16 0x0210 = some (.wireEscapedPair 0x10) ∧ decodeTableWord 8 0x80 = some (.wireLiteral 0x80) ∧
    decodeTableWord 8 0x04 = some (.wireRawLow 0x04) := by decide

/-- The word that `withFetchWord` places is what the next step runs. -/
theorem test_fetch_word :
    step (State.reset.withFetchWord 8 0x30) = .next opened ∧
    step (State.reset.withFetchWord 16 0x0210) = .next { State.reset with rxbuf := [0x02, 0x10] } := ⟨rfl, rfl⟩

/-! ## The frame codec (V-E, V-D) -/

theorem test_encode_V_E01 : frameEncode 0x0010 [] = f1 := by decide
theorem test_encode_V_E04 : frameEncode 0x1234 [0x01, 0x02, 0x03, 0x0F, 0x10, 0xFF] =
    [0x01, 0x12, 0x34, 0x02, 0x10, 0x02, 0x16, 0xC0, 0x02, 0x11, 0x02, 0x12, 0x02, 0x13, 0x02, 0x1F, 0x10, 0xFF, 0x03] := by
  decide
theorem test_enc_V_E10 : (after (exec (.enc 0xABCD [0x10, 0x20, 0x30]) { opened with txstream := [0x03] })).map
    (fun t => (t.txstream, t.ev)) =
      some ([0x03, 0x01, 0xAB, 0xCD, 0x02, 0x10, 0x02, 0x13, 0x65, 0x10, 0x20, 0x30, 0x03], []) := by decide
theorem test_enc_V_E18 : (after (exec (.enc 0xABCD [0x10, 0x20, 0x30]) closed)).map (fun t => (t.txstream, t.ev)) =
    some ([], [.err (.transportUnavailable 0xABCD 3)]) := by decide
theorem test_dec_V_D05 : evs (exec (.dec [0xAB, 0xCD, 0x02, 0x10, 0x02, 0x13, 0x64, 0x10, 0x20, 0x30]) closed) =
    some [.err (.checksum 0xABCD 3 0x64 0x65)] := by decide
theorem test_dec_V_D08 : evs (exec (.dec [0xAB, 0xCD, 0x02, 0x10, 0x02, 0x11, 0x36, 0x02, 0x41]) State.reset) =
    some [.frame 0xABCD 1 0x36 [0x51]] := by decide
theorem test_decode_V_D : (frameDecode .reject [] = .truncHeader 0) ∧
    (frameDecode .reject [0xAB, 0xCD, 0x02, 0x10, 0x02, 0x10] = .truncHeader 4) ∧
    (frameDecode .reject [0xAB, 0xCD, 0x02, 0x10, 0x02, 0x13, 0x65, 0x10, 0x20] = .truncPayload 0xABCD 3 2) ∧
    (frameDecode .reject [0xAB, 0xCD, 0x02, 0x10, 0x02, 0x10, 0x66, 0x20] = .overlong 0xABCD 0 1) ∧
    (frameDecode .ignore [0xAB, 0xCD, 0x02, 0x10, 0x02, 0x10, 0x66, 0x20] = .ok 0xABCD 0 0x66 []) ∧
    (frameDecode .reject [0xAB, 0xCD, 0x02, 0x10, 0x02, 0x10, 0x66, 0x02] = .ok 0xABCD 0 0x66 []) ∧
    (frameDecode .reject [0xAB, 0xCD, 0x00, 0x00, 0x66] = .ok 0xABCD 0 0x66 []) := by decide

/-! ## The stream reassembler (V-R) -/

theorem test_rxc_V_R06 : (after (exec (.rxc ([0x01, 0xAA, 0xBB] ++ f1)) State.reset)).map (fun t => (t.ev, t.rxbuf)) =
    some ([.frame 0x0010 0 0x10 []], []) := by decide
theorem test_rxc_V_R11 : (after (exec (.rxc [0x01, 0xAA, 0xBB, 0xCC, 0xDD, 0xEE]) (cap4 []))).map
    (fun t => (t.ev, t.rxbuf, t.conn)) = some ([.err (.framingOverflow 4)], [], .closed) := by decide
theorem test_rxc_V_R20 : (after (exec (.rxc [0x03]) (cap4 [0x55, 0x55, 0x55, 0x55]))).map (fun t => (t.ev, t.rxbuf, t.conn)) =
    some ([], [], .unbound) := by decide
theorem test_wire_start : bufConn (exec .wireStart (cap4 [0x55])) = some ([0x55, 0x01], .unbound) := by decide
theorem test_wire_esc : bufConn (exec (.wireEsc (some 0x41)) (cap4 [0x01])) = some ([0x01, 0x02, 0x41], .unbound) := by decide
theorem test_wire_esc_overflow : bufConn (exec (.wireEsc (some 0x41)) (cap4 [0x55, 0x55, 0x55])) = some ([], .closed) := by
  decide
theorem test_wire_end : evs (exec .wireEnd (cap4 [0x01, 0xAB, 0xCD])) = some [.err (.truncatedHeader 2)] := by decide
theorem test_wire_escaped_pair : bufConn (exec (.wireEscapedPair 0x10) (cap4 [0x01])) = some ([0x01, 0x02, 0x10], .unbound) := by
  decide
theorem test_wire_literal : bufConn (exec (.wireLiteral 0xFF) (cap4 [])) = some ([0xFF], .unbound) := by decide
theorem test_wire_raw_low : bufConn (exec (.wireRawLow 0x04) closed) = some ([], .closed) := by decide

/-! ## The connection and RESET (V-C, V-X) -/

theorem test_bind_V_C01 : bufConn (exec .bind State.reset) = some ([], .opened) := by decide
theorem test_bind_closed : bufConn (exec .bind closed) = some ([], .closed) := by decide
theorem test_close_V_C06 : bufConn (exec .close { opened with rxbuf := [0x01, 0xAB] }) = some ([], .closed) := by decide
theorem test_reset_V_X01 :
    (after (exec .reset { withSw (start .momentary false 7 propEvent) true true 7 true 0x01 with
      conn := .opened, rxbuf := [0x01, 0xAB], txstream := f1, ev := [.notify 0 true], refused := true })).map
      (fun t => (t.conn, t.rxbuf, t.txstream, t.refused)) = some (.unbound, [], f1, true) ∧
    swEv (exec .reset { withSw (start .momentary false 7 propEvent) true true 7 true 0x01 with ev := [.notify 0 true] }) =
      some ⟨false, false, 0, false, 0, [.notify 0 true]⟩ := by decide

/-! ## The switch state machine (V-S) -/

theorem test_pev_V_S02 : swEv (exec (.pev 0 propEvent valPresence) (withSw (start .toggle false 0 propEvent) true false 0 true 1)) =
    some ⟨false, false, 0, true, 0x01, [.notify 0 false]⟩ := by decide
theorem test_pev_V_S06 : swEv (exec (.pev 0 propState valOpen) (withSw (start .direct true 0 propState) true false 0 true 4)) =
    some ⟨false, false, 0, true, 0x05, [.notify 0 false]⟩ := by decide
theorem test_ton_V_S12 : swEv (exec (.ton 0) (withSw (start .momentary false 2 propEvent) true true 1 true 1)) =
    some ⟨true, false, 0, true, 0x01, [.notify 0 true]⟩ := by decide
theorem test_toff_V_S13 : swEv (exec (.toff 0) (withSw (start .momentary false 2 propEvent) true true 2 true 1)) =
    some ⟨false, false, 0, false, 0x00, [.notify 0 false]⟩ := by decide
theorem test_tick_V_S17 : swEv (exec .tick (withSw (start .momentary false 1 propEvent) true true 0 true 1)) =
    some ⟨true, true, 0, true, 0x01, []⟩ := by decide
theorem test_tick_V_S26 : swEv (exec .tick (withSw (start .momentary false 65535 propEvent) true true 65535 true 1)) =
    some ⟨true, true, 65534, true, 0x01, []⟩ := by decide
theorem test_texp_V_S08 : swEv (exec (.texp 0) (withSw (start .momentary false 15 propEvent) true true 0 true 1)) =
    some ⟨false, false, 0, false, 0x00, [.notify 0 false]⟩ := by decide
theorem test_texp_V_S10 : mark (exec (.texp 0) (withSw (start .momentary false 2 propEvent) true true 1 true 1)) =
    some (true, some .texpNotEnabled) := by decide

/-! ## Refused words, SEND, and the register view (V-P) -/

theorem test_step_V_P08 : mark (step (given .host [0x12] State.reset)) = some (true, some .illegalOpcode) := by decide
theorem test_step_V_P09 : mark (step (given .host [0x30, 0x00] State.reset)) = some (true, some .badLength) := by decide
theorem test_step_V_P11 : mark (step (given .host [0x41, 0x05] State.reset)) = some (true, some .badInstance) := by decide
theorem test_send_V_P12 : expandSend ['0', '0', '4', '9'] ['F', 'F', 'F', 'C', '1', 'E', '0', '0'] =
    some (.enc 0x0049 [0xFF, 0xFC, 0x1E, 0x00]) := by decide
theorem test_send_refused : expandSend ['4', '9'] [] = none ∧ expandSend ['0', '0', '1', '0'] ['A', 'B', 'C'] = none ∧
    expandSend ['0', '0', 'g', '0'] [] = none := by decide
theorem test_send_V_P16 : expandSend ['a', 'b', 'c', 'd'] [] = some (.enc 0xABCD []) := by decide
theorem test_registers : regView 0x000 opened = some 1 ∧ regView 0x001 (cap4 [0x01, 0xAB]) = some 2 ∧
    regView 0x002 State.reset = some 0x2 ∧ regView 0x003 (cap4 []) = some 4 ∧
    regView 0x100 (start .momentary true 3 propEvent) = some 0x106 ∧
    regView 0x101 (start .momentary true 3 propEvent) = some 3 ∧
    regView 0x102 (withSw (start .momentary false 7 propEvent) true true 7 true 0x01) = some 0x107 ∧
    regView 0x103 (withSw (start .momentary false 7 propEvent) true true 7 true 0x01) = some 7 ∧
    regView 0x004 State.reset = none ∧ regView 0x104 State.reset = none := by decide

/-! ## The hypotheses of the statements can be met -/

/-- A momentary instance with a delay of 2, just activated (V-S09). -/
def armed : State := withSw (start .momentary false 2 propEvent) true true 2 true 0x01

/-- The same with the delay run down: its TEXP is enabled. -/
def due : State := withSw (start .momentary false 2 propEvent) true true 0 true 0x01

/-- The instance of `armed`. -/
def armedSw : Switch where
  mode := .momentary
  inverted := false
  revertDelay := 2
  watchedProp := propEvent
  initOn := false
  on := true
  tmrArmed := true
  tmrRemain := 2
  trackedValid := true
  trackedValue := 0x01

theorem test_inv_armed : MachineInv armed :=
  ⟨by decide, by decide, by decide, by decide,
    .cons ⟨rfl, rfl, rfl, rfl, rfl, by decide, by decide, by decide⟩ .nil, rfl⟩

theorem test_inv_due : MachineInv due :=
  ⟨by decide, by decide, by decide, by decide,
    .cons ⟨rfl, rfl, rfl, rfl, rfl, by decide, by decide, by decide⟩ .nil, rfl⟩

theorem test_inv_given (a : Agent) (word : List Byte) : MachineInv (given a word armed) :=
  ⟨test_inv_armed.config, test_inv_armed.capacity, test_inv_armed.noEndMarker, test_inv_armed.closedEmpty,
    test_inv_armed.switches, test_inv_armed.refusal⟩

theorem test_hyps_CommandDecodeOfEncode :
    wellFormed (.enc 0xABCD [0x10]) = true ∧ portOf (.enc 0xABCD [0x10]) = .command := by decide
theorem test_hyps_CommandEncodeOfDecode : decodeCommand [0x42, 0xFF] = .ok (.toff 0xFF) := by rfl
theorem test_hyps_WireDecodeOfEncode :
    (wellFormed (.wireEsc none) = true ∧ portOf (.wireEsc none) = .wire ∧ ∀ b ∈ [(0x03 : Byte), 0x55].head?, b = 0x01 ∨ b = 0x03) ∧
    wellFormed (.wireEscapedPair 0x1F) = true ∧ portOf (.wireEscapedPair 0x1F) = .wire := by decide
theorem test_hyps_WireEncodeOfDecode : decodeWire [0x02, 0x20, 0x03] = some (.wireEsc (some 0x20), [0x03]) := by decide

/-- One word for each clause: the opcodes beside the assigned ones, a word too long, a whole word, the first index that is no
instance, and a timer that is armed but not yet due. -/
theorem test_hyps_CommandWordsRefused :
    MachineInv (given .host [0x45] armed) ∧ MachineInv (given .propsrc [0x40, 0x01, 0x01, 0x01] armed) ∧
    MachineInv (given (.timer 0) [0x44, 0x00] armed) ∧
    (0x45 : Byte) ∉ [0x10, 0x11, 0x20, 0x30, 0x31, 0x40, 0x41, 0x42, 0x43, 0x44, (0xFF : Byte)] ∧
    [(0x30 : Byte), 0x00].length ≠ commandLength [0x30, 0x00] ∧
    [(0x20 : Byte), 0x00, 0x01, 0x55].length = commandLength [0x20, 0x00, 0x01, 0x55] ∧
    armed.cfg.nsw ≤ (0x01 : Byte).toNat ∧
    (armed.sw[(0x00 : Byte).toNat]? = some armedSw ∧ ¬(armedSw.tmrArmed = true ∧ armedSw.tmrRemain = 0)) :=
  ⟨test_inv_given _ _, test_inv_given _ _, test_inv_given _ _, by decide, by decide, by decide, by decide, by decide⟩

theorem test_hyps_StepRunsCommandWord :
    configOk (given .host [0x31] armed).cfg = true ∧
    (given .host [0x31] armed).pending = .command (agentOf .close) [0x31] :: [] ∧
    decodeCommand [0x31] = .ok .close := ⟨rfl, rfl, rfl⟩
theorem test_hyps_StepRunsWireUnit :
    configOk ({ armed with pending := [.wire [0x02, 0x1F, 0x03]] } : State).cfg = true ∧
    ({ armed with pending := [.wire [0x02, 0x1F, 0x03]] } : State).pending = .wire [0x02, 0x1F, 0x03] :: [] ∧
    decodeWire [0x02, 0x1F, 0x03] = some (.wireEscapedPair 0x1F, [0x03]) := by decide
theorem test_hyps_WrongAgentHasNoMove :
    configOk (given (.timer 1) [0x44, 0x00] armed).cfg = true ∧
    (given (.timer 1) [0x44, 0x00] armed).pending = .command (.timer 1) [0x44, 0x00] :: [] ∧
    decodeCommand [0x44, 0x00] = .ok (.texp 0) ∧ Agent.timer 1 ≠ .timer 0 := ⟨rfl, rfl, rfl, by decide⟩

/-- Each condition of R231 at its boundary. -/
theorem test_hyps_IllFormedConfigHasNoRun :
    configOk { Config.default with bufCap := 1 } = true ∧ configOk { Config.default with bufCap := 0 } = false ∧
    configOk (cfgOf .momentary true 65535 0xFF) = true ∧ configOk (cfgOf .momentary true 65536 0xFF) = false ∧
    configOk (cfgOf .reserved false 0 0) = false ∧ configOk { Config.default with cfgInit := [] } = true ∧
    configOk { Config.default with actSet := [valPresence] } = false ∧
    configOk { Config.default with actSet := [valOn] } = false ∧
    configOk { Config.default with invActSet := [valClosed] } = false ∧
    configOk { Config.default with invActSet := [valOff] } = false ∧
    configOk { Config.default with invActSet := [valClosed, valOff, valOpen] } = false := by decide
theorem test_hyps_IllFormedConfigHasNoRun_reserved :
    (start .reserved false 0 propState).sw[(0x00 : Byte).toNat]?.map (fun w => w.mode) = some .reserved := by decide
theorem test_bad_config_V_X04 : stop (step (start .reserved false 0 propState)) = some .badConfig := by decide

theorem test_hyps_SendExpandsToEnc :
    hexDigit '0' = some 0 ∧ hexDigit '9' = some 9 ∧ hexDigit 'a' = some 10 ∧ hexDigit 'f' = some 15 ∧
    hexDigit 'A' = some 10 ∧ hexDigit 'F' = some 15 ∧ hexDigit '/' = none ∧ hexDigit ':' = none ∧ hexDigit '@' = none ∧
    hexDigit 'G' = none ∧ hexDigit '`' = none ∧ hexDigit 'g' = none ∧
    [(0xFC : Byte)].length ≤ 65535 ∧ ['0', '0', '1'].length ≠ 4 ∧ ['A', 'B', 'C'].length % 2 = 1 ∧
    configOk armed.cfg = true := by decide
theorem test_hyps_SendExpandsToEnc_digits :
    List.Forall₂ (fun (d : Char × Char) (b : Byte) =>
      ∃ h l, hexDigit d.1 = some h ∧ hexDigit d.2 = some l ∧ b = BitVec.ofNat 8 (16 * h + l)) [('F', 'c')] [0xFC] :=
  .cons ⟨15, 12, rfl, rfl, rfl⟩ .nil
theorem test_hyps_AdminRefusedByName :
    configOk ({ armed with pending := [.initNetwork] } : State).cfg = true ∧
    ({ armed with pending := [.initNetwork] } : State).pending = .initNetwork :: [] := ⟨rfl, rfl⟩
theorem test_hyps_TimersActWhenNothingWaits :
    (MachineInv armed ∧ armed.pending = [] ∧ runEnded armed) ∧ (MachineInv due ∧ due.pending = [] ∧ ¬runEnded due) :=
  ⟨⟨test_inv_armed, rfl, rfl⟩, ⟨test_inv_due, rfl, by unfold runEnded; decide⟩⟩

/-- A low byte, the largest byte that is escaped and the smallest that is not, in bodies. -/
theorem test_hyps_BodyByteInFrame :
    be16 0xABCD ++ be16 (BitVec.ofNat 16 [(0x0F : Byte), 0x10].length) ++
      [checksum 0xABCD (BitVec.ofNat 16 [(0x0F : Byte), 0x10].length) [0x0F, 0x10]] ++ [0x0F, 0x10] =
        [0xAB, 0xCD, 0x00, 0x02, 0x7B] ++ (0x0F : Byte) :: [0x10] ∧
    (0x0F : Byte) < 0x10 ∧ (0x10 : Byte) ≤ 0x10 := by decide
theorem test_hyps_WireLengthBounds : (List.replicate 65535 (0x00 : Byte)).length ≤ 65535 := by
  rw [List.length_replicate]
theorem test_hyps_ChecksumIsXor : [(0x01 : Byte), 0x02].Perm [0x02, 0x01] := by decide

/-- A span for each clause: a header of 4 bytes, one payload byte too few, one too many, and the exact count with a wrong and
a right checksum (V-D03 to V-D06, V-D16). -/
theorem test_hyps_DecodeChecksInOrder :
    (unescape [0xAB, 0xCD, 0x02, 0x10, 0x02, 0x10]).length < 5 ∧
    unescape [0xAB, 0xCD, 0x02, 0x10, 0x02, 0x13, 0x65, 0x10, 0x20] = be16 0xABCD ++ be16 3 ++ [0x65] ++ [0x10, 0x20] ∧
    [(0x10 : Byte), 0x20].length < (3 : Word16).toNat ∧
    unescape [0xAB, 0xCD, 0x02, 0x10, 0x02, 0x10, 0x66, 0x20] = be16 0xABCD ++ be16 0 ++ [0x66] ++ [0x20] ∧
    (0 : Word16).toNat < [(0x20 : Byte)].length ∧
    unescape [0xAB, 0xCD, 0x02, 0x10, 0x02, 0x12, 0x66, 0x20, 0x22] = be16 0xABCD ++ be16 2 ++ [0x66] ++ [0x20, 0x22] ∧
    (2 : Word16).toNat = [(0x20 : Byte), 0x22].length ∧
    checksum 0xABCD 2 [0x20, 0x22] = 0x66 ∧ checksum 0xABCD 2 [0x21, 0x22] ≠ 0x66 := by decide
theorem test_hyps_FrameRoundTrip : [(0x20 : Byte), 0x22].length ≤ 65535 := by decide

/-- The flips of V-D11 to V-D15: first and last bit of the fields, longer and shorter lengths. -/
theorem test_hyps_TamperedBodyRejected :
    (1 < 2 ∧ 1 < 5 + [(0x20 : Byte), 0x22].length ∧ 0 < 8) ∧ (4 ≤ 6 ∧ 6 < 5 + [(0x20 : Byte), 0x22].length ∧ 7 < 8) ∧
    [(0x20 : Byte), 0x22].length < bodyLength (flipBit (frameBody 0xABCD [0x20, 0x22]) 3 0) ∧
    [(0x20 : Byte), 0x22].length < bodyLength (flipBit (frameBody 0xABCD [0x20, 0x22]) 2 7) ∧
    bodyLength (flipBit (frameBody 0xABCD [0x20, 0x22]) 3 1) < [(0x20 : Byte), 0x22].length := by decide

theorem test_hyps_EncResult : [(0xFF : Byte)].length ≤ 65535 ∧ opened.conn = .opened ∧ armed.conn = .unbound ∧
    closed.conn = .closed := by decide
theorem test_hyps_DecResult : [(0xFF : Byte)].length ≤ 65535 ∧
    frameDecode State.reset.cfg.surplus [0xAB, 0xCC, 0x02, 0x10, 0x02, 0x10, 0x66] = .chkErr 0xABCC 0 0x66 0x67 := by decide
theorem test_hyps_RxcByByte :
    (cap4 []).conn ≠ .closed ∧ (cap4 [0x55, 0x01, 0x01, 0xAB]).rxbuf = [0x55, 0x01] ++ 0x01 :: [0xAB] ∧ (0x01 : Byte) ∉ [(0xAB : Byte)] ∧
    (0x01 : Byte) ∉ (cap4 [0x55]).rxbuf ∧ (0x02 : Byte) ≠ 0x03 ∧
    (cap4 [0x55, 0x01, 0x01, 0xAB]).rxbuf.length = (cap4 [0x55, 0x01, 0x01, 0xAB]).cfg.bufCap ∧
    (cap4 [0x55, 0x01, 0x01]).rxbuf.length < (cap4 [0x55, 0x01, 0x01]).cfg.bufCap := by decide
theorem test_hyps_ReceiveFrame : (∃ chunk, Instr.rxc [0x55] = .rxc chunk) ∧ portOf (.wireRawLow 0x0F) = .wire := ⟨⟨_, rfl⟩, rfl⟩
theorem test_hyps_RxcIsChunkLevel :
    (cap4 [0x01]).conn ≠ .closed ∧ endMarker ∉ (cap4 [0x01]).rxbuf ∧
    (cap4 [0x01]).rxbuf.length + [(0xAB : Byte), 0x03, 0x55].length ≤ (cap4 [0x01]).cfg.bufCap := by decide

/-- V-R13: the frame's 9 stored bytes are exactly the capacity. -/
theorem test_hyps_Resynchronisation :
    [[(0x01 : Byte), 0x02, 0x10, 0x10], [0x02, 0x10, 0x02, 0x10, 0x10, 0x03]].flatten = frameEncode 0x0010 [] ∧
    (State.powerOn { Config.default with bufCap := 9 }).conn ≠ .closed ∧
    endMarker ∉ (State.powerOn { Config.default with bufCap := 9 }).rxbuf ∧
    (State.powerOn { Config.default with bufCap := 9 }).rxbuf.length + (frameEncode 0x0010 []).length - 1 ≤
      (State.powerOn { Config.default with bufCap := 9 }).cfg.bufCap := by decide
theorem test_hyps_UnterminatedStreamOverflows :
    (cap4 [0x01]).conn ≠ .closed ∧ endMarker ∉ [(0xAA : Byte), 0xBB, 0xCC] ∧ (0xDD : Byte) ≠ endMarker ∧
    (cap4 [0x01]).rxbuf.length + [(0xAA : Byte), 0xBB, 0xCC].length = (cap4 [0x01]).cfg.bufCap := by decide
theorem test_hyps_ReceptionIgnoresBinding :
    armed.conn = .unbound ∧ exec (.rxc [0x03]) armed = .next armed := ⟨rfl, rfl⟩

/-- A unit that fits exactly, one that overflows by its second byte, and an end marker with and without a start marker. -/
theorem test_hyps_WireUnitResults :
    wellFormed (.wireEscapedPair 0x10) = true ∧ portOf (.wireEscapedPair 0x10) = .wire ∧
    (cap4 [0x01, 0x55]).rxbuf.length + (encode (.wireEscapedPair 0x10)).length ≤ (cap4 [0x01, 0x55]).cfg.bufCap ∧
    (cap4 [0x01, 0x55]).cfg.bufCap < [(0x01 : Byte), 0x55, 0x55].length + (encode (.wireEscapedPair 0x10)).length ∧
    (cap4 [0x55, 0x01, 0xAB]).rxbuf = [0x55] ++ 0x01 :: [0xAB] ∧ (0x01 : Byte) ∉ [(0xAB : Byte)] ∧
    (0x01 : Byte) ∉ (cap4 [0x55]).rxbuf ∧ (cap4 []).conn ≠ .closed ∧ closed.conn = .closed := by decide
theorem test_hyps_UnescapeByUnits : startMarker ∉ [(0x02 : Byte), 0x1F, 0x02] ∧ endMarker ∉ [(0x02 : Byte), 0x1F, 0x02] := by decide

theorem test_hyps_BindResult : armed.conn = .unbound ∧ opened.conn = .opened ∧ closed.conn = .closed := ⟨rfl, rfl, rfl⟩
theorem test_hyps_CloseResult : closed.conn = .closed ∧ closed.rxbuf = [] := ⟨rfl, rfl⟩
theorem test_hyps_ClosedUntilReset :
    closed.conn = .closed ∧ Instr.rxc [0x01] ≠ .reset ∧ exec (.rxc [0x01]) closed = .next closed := ⟨rfl, by decide, rfl⟩
theorem test_hyps_ConnWriters : exec .bind State.reset = .next opened ∧ opened.conn ≠ State.reset.conn := ⟨rfl, by decide⟩
theorem test_hyps_OnlyEncWrites :
    exec (.enc 0x0010 []) opened = .next { opened with txstream := frameEncode 0x0010 [] } := by rfl
theorem test_hyps_ResetResult : armed.cfg.cfgInit[0]? = some
    { mode := .momentary, inverted := false, revertDelay := 2, watchedProp := propEvent } := by decide

/-- An instance of each mode, with an activating and another value; and an index that is no instance. -/
theorem test_hyps_PevResult :
    armed.sw[(0x00 : Byte).toNat]? = some armedSw ∧ armed.sw.length ≤ (0x01 : Byte).toNat ∧
    propEvent = armedSw.watchedProp ∧ propState ≠ armedSw.watchedProp ∧ armedSw.mode = .momentary ∧
    (start .direct true 0 propState).sw[(0x00 : Byte).toNat]?.map (fun w => w.mode) = some .direct ∧
    (start .toggle false 0 propEvent).sw[(0x00 : Byte).toNat]?.map (fun w => w.mode) = some .toggle := by decide
theorem test_hyps_PevResult_activating :
    Activating armed.cfg armedSw valPresence ∧ ¬Activating armed.cfg armedSw valClosed ∧
    Activating armed.cfg { armedSw with inverted := true } valClosed ∧
    ¬Activating armed.cfg { armedSw with inverted := true } valOpen := by unfold Activating; decide
theorem test_hyps_TonResult : armed.sw[(0x00 : Byte).toNat]? = some armedSw ∧ armed.sw.length ≤ (0x01 : Byte).toNat := by decide
theorem test_hyps_ToffResult : armed.sw[(0x00 : Byte).toNat]? = some armedSw ∧ armed.sw.length ≤ (0xFF : Byte).toNat := by decide

/-- An instance that is due, one tick before, and not armed. -/
theorem test_hyps_TexpResult :
    due.sw[(0x00 : Byte).toNat]? = some { armedSw with tmrRemain := 0 } ∧
    ({ armedSw with tmrRemain := 0 } : Switch).tmrArmed = true ∧ 0 < ({ armedSw with tmrRemain := 1 } : Switch).tmrRemain.toNat ∧
    ({ armedSw with tmrArmed := false } : Switch).tmrArmed = false ∧ due.sw.length ≤ (0x01 : Byte).toNat := by decide
theorem test_hyps_TicksCountDown :
    armed.sw[0]? = some armedSw ∧ armedSw.tmrArmed = true ∧ ({ armedSw with tmrArmed := false } : Switch).tmrArmed = false := by
  decide
theorem test_hyps_ToggleFlipsTwice :
    (start .toggle false 2 propEvent).sw[(0x00 : Byte).toNat]? = some
      { armedSw with mode := .toggle, on := false, tmrArmed := false, tmrRemain := 0, trackedValid := false, trackedValue := 0 } ∧
    valPresence ∈ (start .toggle false 2 propEvent).cfg.actSet := by decide

/-- Both cases of n at their boundary: the delay of `armed` is 2. -/
theorem test_hyps_MomentaryReverts :
    (armed.sw[(0x00 : Byte).toNat]? = some armedSw ∧ armedSw.mode = .momentary ∧ armedSw.revertDelay.toNat ≤ 2 ∧
      1 < armedSw.revertDelay.toNat) ∧ Activating armed.cfg armedSw valOn :=
  ⟨by decide, by unfold Activating; decide⟩
theorem test_hyps_SupersededRevertNeverFires :
    ∃ t u, armed.sw[(0x00 : Byte).toNat]? = some armedSw ∧
      execAll (.ton 0x00 :: List.replicate 1 .tick) armed = .next t ∧ exec (.texp 0x00) t = .next u :=
  ⟨_, _, rfl, rfl, rfl⟩
theorem test_hyps_InstancesAreIndependent :
    Instr.toff 0x00 ∈ [.pev 0x00 0 0, .ton 0x00, .toff 0x00, .texp (0x00 : Byte)] ∧
    ∃ t, exec (.toff 0x00) armed = .next t := ⟨by decide, _, rfl⟩
theorem test_hyps_SwitchesIgnoreConnection :
    Instr.tick ∈ [.pev 0x00 0 0, .ton 0x00, .toff 0x00, .tick, .texp (0x00 : Byte)] ∧
    ∃ t, exec .tick armed = .next t := ⟨by decide, _, rfl⟩
theorem test_hyps_TrackedValueIsNotRead :
    armed.sw[0]? = some armedSw ∧ ∃ t, exec (.pev 0x00 propEvent valPresence) armed = .next t := ⟨by decide, _, rfl⟩
theorem test_hyps_SwitchFrame :
    Instr.texp 0x00 ∈ [.pev 0x00 0 0, .ton 0x00, .toff 0x00, .tick, .texp (0x00 : Byte)] ∧
    ∃ t, exec (.texp 0x00) due = .next t := ⟨by decide, _, rfl⟩

/-- Numbers on both sides of each gap in the register numbers. -/
theorem test_hyps_RegisterViewReads :
    (MachineInv armed ∧ MachineInv { armed with pending := [.readRegister 0x103] }) ∧ armed.sw[0]? = some armedSw ∧ (3 < 0x004 ∧ 0x0FF < 0x100) ∧
    0x100 + 4 * armed.cfg.nsw ≤ 0x104 ∧ (regView 0x103 armed).isSome = true ∧ regView 0x104 armed = none :=
  ⟨⟨test_inv_armed, by decide, by decide, by decide, by decide, test_inv_armed.switches, rfl⟩,
    by decide, by decide, by decide, by decide, by decide⟩
theorem test_hyps_HardwiredRegisterFields :
    MachineInv due ∧ 0 < due.cfg.nsw ∧ Reads 0x102 due 0x107 ∧ Reads 0x103 due 0 :=
  ⟨test_inv_due, by decide, by unfold Reads; decide, by unfold Reads; decide⟩
theorem test_hyps_StepKeepsInv : MachineInv (given .host [0x31] armed) ∧ ∃ t, step (given .host [0x31] armed) = .next t :=
  ⟨test_inv_given _ _, _, rfl⟩
theorem test_hyps_PowerOnSatisfiesInv : configOk (cfgOf .momentary true 65535 propEvent) = true := by decide
theorem test_hyps_OutputsAndMarkAreKept : ∃ t, step (given .host [0x45] armed) = .next t ∧ t.refused = true :=
  ⟨_, rfl, rfl⟩
theorem test_hyps_EnabledTimersAllFire : MachineInv due ∧ due.pending = [] ∧ enabledTimers due = [0] :=
  ⟨test_inv_due, rfl, by decide⟩

end Sys2Proof.Tests
end

section
/-! SUPPORT. What an operation can do, as one inversion (`ExecEffect`), and the statements about the whole state that follow
from it: who writes `CONN` and `TXSTREAM`, what the switch operations leave unchanged, and what no step takes back. -/

namespace Sys2Proof.Machine

/-! ## The effects of the switch operations -/

/-- The registers of a switch that only its parameter gives (10_state.md R28). -/
def Switch.settings (w : Switch) : Mode × Bool × Word16 × Byte × Bool :=
  (w.mode, w.inverted, w.revertDelay, w.watchedProp, w.initOn)

/-- What an operation on switch k can do: the registers of switches change but for their settings, with at most one
notification of switch k; or the operation is refused. -/
inductive SwitchEffect (k : Byte) (s : State) : State → Prop where
  | updated (sw : List Switch) (evs : List Event) (settings : sw.map Switch.settings = s.sw.map Switch.settings)
      (notified : evs = [] ∨ ∃ on, evs = [.notify k on]) : SwitchEffect k s { s with sw := sw, ev := s.ev ++ evs }
  | refused (r : RefuseReason) : SwitchEffect k s (afterRefusal r s)

section SwitchOperations

variable {k : Byte} {s t : State} {w w' : Switch}

theorem map_settings_set (hw : s.sw[k.toNat]? = some w) (h : w'.settings = w.settings) :
    (s.sw.set k.toNat w').map Switch.settings = s.sw.map Switch.settings := by
  obtain ⟨hk, rfl⟩ := List.getElem?_eq_some_iff.mp hw
  rw [List.map_set, h, ← List.getElem_map Switch.settings (h := by simpa using hk), List.set_getElem_self]

theorem countDown_settings (w : Switch) : (countDown w).settings = w.settings := by
  unfold countDown; split <;> rfl

theorem switchEffect_self : SwitchEffect k s s := by
  simpa using SwitchEffect.updated (k := k) s.sw [] rfl (.inl rfl)

theorem switchEffect_putSwitch (hw : s.sw[k.toNat]? = some w) (h : w'.settings = w.settings) :
    SwitchEffect k s (putSwitch k w' s) := by
  simpa [putSwitch] using SwitchEffect.updated _ [] (map_settings_set hw h) (.inl rfl)

theorem switchEffect_assign (v : Bool) (hw : s.sw[k.toNat]? = some w) (h : w'.settings = w.settings) :
    SwitchEffect k s (assign k v w' s) := by
  rw [assign_eq]
  refine .updated _ _ (map_settings_set hw h) ?_
  split
  · exact .inr ⟨v, rfl⟩
  · exact .inl rfl

/-- An operation on switch k has a switch effect when it has one with the registers that it reads. -/
theorem switchEffect_withSwitch {f : Switch → Host.Outcome State Fault Refusal} (h : withSwitch k s f = .next t)
    (hf : ∀ w, s.sw[k.toNat]? = some w → f w = .next t → SwitchEffect k s t) : SwitchEffect k s t := by
  rcases withSwitch_cases k s f with ⟨w, hw, e⟩ | ⟨-, e⟩
  · exact hf w hw (e ▸ h)
  · cases e.symm.trans h
    exact .refused .badInstance

theorem switchEffect_watchedEvent {val : Byte} (hw : s.sw[k.toNat]? = some w) (hs : w'.settings = w.settings)
    (h : watchedEvent k val w' s = .next t) : SwitchEffect k s t := by
  unfold watchedEvent at h
  split at h
  case h_1 => cases h; exact switchEffect_assign _ hw hs
  case h_2 =>
    split at h <;> cases h
    · exact switchEffect_assign _ hw hs
    · exact switchEffect_putSwitch hw hs
  case h_3 =>
    split at h <;> cases h
    · exact switchEffect_assign true (w' := arm w') hw hs
    · exact switchEffect_putSwitch hw hs
  case h_4 => cases h

theorem switchEffect_pev {prop val : Byte} (h : exec (.pev k prop val) s = .next t) : SwitchEffect k s t :=
  switchEffect_withSwitch h fun w hw h => by
    split at h
    · exact switchEffect_watchedEvent (w' := track val w) hw rfl h
    · cases h; exact switchEffect_self

theorem switchEffect_ton (h : exec (.ton k) s = .next t) : SwitchEffect k s t :=
  switchEffect_withSwitch h fun w hw h => by
    cases h; exact switchEffect_assign true (w' := disarm w) hw rfl

theorem switchEffect_turnOff (hw : s.sw[k.toNat]? = some w) : SwitchEffect k s (turnOff k w s) :=
  switchEffect_assign false (w' := untrack (disarm w)) hw rfl

theorem switchEffect_toff (h : exec (.toff k) s = .next t) : SwitchEffect k s t :=
  switchEffect_withSwitch h fun w hw h => by cases h; exact switchEffect_turnOff hw

theorem switchEffect_texp (h : exec (.texp k) s = .next t) : SwitchEffect k s t :=
  switchEffect_withSwitch h fun w hw h => by
    split at h <;> cases h
    · exact switchEffect_turnOff hw
    · exact .refused .texpNotEnabled

/-- TICK is of no one switch, and notifies of none, so its effect is one on any switch. -/
theorem switchEffect_tick (k : Byte) (h : exec .tick s = .next t) : SwitchEffect k s t := by
  have settings : (s.sw.map countDown).map Switch.settings = s.sw.map Switch.settings := by
    simp [Function.comp_def, countDown_settings]
  cases h
  simpa using SwitchEffect.updated (k := k) _ [] settings (.inl rfl)

theorem switchEffect_of_mem {prop val : Byte} {i : Instr}
    (hi : i ∈ [.pev k prop val, .ton k, .toff k, .tick, .texp k]) (h : exec i s = .next t) : SwitchEffect k s t := by
  simp only [List.mem_cons, List.not_mem_nil, or_false] at hi
  rcases hi with rfl | rfl | rfl | rfl | rfl
  · exact switchEffect_pev h
  · exact switchEffect_ton h
  · exact switchEffect_toff h
  · exact switchEffect_tick k h
  · exact switchEffect_texp h

theorem switchEffect_settings (h : SwitchEffect k s t) (j : Nat) :
    (t.sw[j]?).map Switch.settings = (s.sw[j]?).map Switch.settings := by
  cases h with
  | updated sw evs settings _ => simp only [← List.getElem?_map, settings]
  | refused r => rfl

end SwitchOperations

/-- Settles O53: the two effects of a switch operation, field by field. -/
theorem switchFrame : Obligations.SwitchFrame := by
  intro k prop val i s t hi h
  have effect := switchEffect_of_mem hi h
  have settings := switchEffect_settings effect
  cases effect with
  | updated sw evs _ notified =>
    refine ⟨rfl, rfl, rfl, rfl, rfl, rfl, ?_, settings, .inl ⟨rfl, rfl⟩⟩
    rcases notified with rfl | ⟨on, rfl⟩
    · exact .inl (List.append_nil _)
    · exact .inr ⟨on, rfl⟩
  | refused r => exact ⟨rfl, rfl, rfl, rfl, rfl, rfl, .inl rfl, settings, .inr ⟨r, rfl⟩⟩

/-! ## The effects of every operation -/

/-- Everything an operation can do to the state, and which operation it then is. -/
inductive ExecEffect (i : Instr) (s : State) : State → Prop where
  | kept : ExecEffect i s s
  | sent (cmd : Word16) (payload : List Byte) (op : i = .enc cmd payload) (isOpen : s.conn = .opened) :
      ExecEffect i s (txWrite (frameEncode cmd payload) s)
  | emitted (e : Event) : ExecEffect i s (emit e s)
  | received (bytes : List Byte) (op : (∃ chunk, i = .rxc chunk) ∨ portOf i = .wire) : ExecEffect i s (receive bytes s)
  | bound (op : i = .bind) (isUnbound : s.conn = .unbound) : ExecEffect i s (setConn .opened s)
  | closed (op : i = .close) : ExecEffect i s (bufClear (setConn .closed s))
  | restarted (op : i = .reset) :
      ExecEffect i s (bufClear { setConn .unbound s with sw := s.cfg.cfgInit.map Switch.ofInit })
  | switched (k : Byte) (t : State) (effect : SwitchEffect k s t) : ExecEffect i s t

theorem exec_effect {i : Instr} {s t : State} (h : exec i s = .next t) : ExecEffect i s t := by
  cases i with
  | enc cmd payload =>
    change execEnc cmd payload s = .next t at h
    unfold execEnc at h
    split at h <;> cases h
    · exact .sent cmd payload rfl ‹_›
    · exact .emitted _
  | dec span => cases h; exact .emitted _
  | rxc chunk => cases h; exact .received chunk (.inl ⟨chunk, rfl⟩)
  | bind =>
    change execBind s = .next t at h
    unfold execBind at h
    split at h <;> cases h
    · exact .bound rfl ‹_›
    · exact .kept
    · exact .kept
  | close => cases h; exact .closed rfl
  | reset => cases h; exact .restarted rfl
  | pev k prop val => exact .switched k t (switchEffect_pev h)
  | ton k => exact .switched k t (switchEffect_ton h)
  | toff k => exact .switched k t (switchEffect_toff h)
  | tick => exact .switched 0 t (switchEffect_tick 0 h)
  | texp k => exact .switched k t (switchEffect_texp h)
  | wireStart | wireEsc _ | wireEnd | wireEscapedPair _ | wireLiteral _ | wireRawLow _ =>
    cases h; exact .received _ (.inr rfl)

/-! ## The writers of `CONN` and `TXSTREAM` -/

/-- Receiving changes `CONN` by a framing overflow alone, whose error is then the last event: what follows is ignored. -/
theorem receive_conn (bytes : List Byte) (s : State) :
    (receive bytes s).conn = s.conn ∨ ((receive bytes s).conn = .closed ∧ (receive bytes s).rxbuf = [] ∧
      ∃ before cap, (receive bytes s).ev = before ++ [.err (.framingOverflow cap)]) := by
  induction bytes generalizing s with
  | nil => exact .inl rfl
  | cons b rest ih =>
    by_cases h : s.conn = .closed
    · exact .inl (by rw [receive_closed h])
    rw [receive_cons h]
    rcases pushByte_cases b s with ⟨-, evs, e⟩ | ⟨hb, full, -⟩ | ⟨-, -, e⟩
    · simpa only [e] using ih (pushByte b s)
    · rw [pushByte_full hb full, receive_closed rfl]
      exact .inr ⟨rfl, rfl, _, _, rfl⟩
    · simpa only [e, bufAppend_conn] using ih (pushByte b s)

theorem receive_txstream (bytes : List Byte) (s : State) : (receive bytes s).txstream = s.txstream := by
  obtain ⟨buf, evs, c, e, -⟩ := receive_frame bytes s
  rw [e]

theorem switchEffect_conn {k : Byte} {s t : State} (h : SwitchEffect k s t) : t.conn = s.conn := by cases h <;> rfl

theorem switchEffect_txstream {k : Byte} {s t : State} (h : SwitchEffect k s t) : t.txstream = s.txstream := by
  cases h <;> rfl

/-- Settles O38: of the effects of an operation, only four change `CONN`. -/
theorem connWriters : Obligations.ConnWriters := by
  intro i s t h changed
  cases exec_effect h with
  | kept => exact absurd rfl changed
  | sent => exact absurd rfl changed
  | emitted => exact absurd rfl changed
  | received bytes op => exact .inr (.inr (.inr ⟨op, (receive_conn bytes s).resolve_left changed⟩))
  | bound op isUnbound => exact .inl ⟨op, isUnbound, rfl⟩
  | closed op => exact .inr (.inl ⟨op, rfl⟩)
  | restarted op => exact .inr (.inr (.inl ⟨op, rfl⟩))
  | switched k _ effect => exact absurd (switchEffect_conn effect) changed

/-- Settles O39: of the effects of an operation, only the sending of a frame writes `TXSTREAM`. -/
theorem onlyEncWrites : Obligations.OnlyEncWrites := by
  intro i s t h
  cases exec_effect h with
  | sent cmd payload op isOpen => exact .inr ⟨cmd, payload, op, isOpen, rfl⟩
  | received bytes => exact .inl (receive_txstream bytes s)
  | switched k _ effect => exact .inl (switchEffect_txstream effect)
  | kept | emitted | bound | closed | restarted => exact .inl rfl

/-! ## What no step takes back -/

/-- The parameters are the same, the output records have at most grown, and the mark is not cleared. -/
structure OutputsKept (s t : State) : Prop where
  cfg      : t.cfg = s.cfg
  ev       : s.ev <+: t.ev
  txstream : s.txstream <+: t.txstream
  refused  : s.refused = true → t.refused = true

theorem outputsKept_receive (bytes : List Byte) (s : State) : OutputsKept s (receive bytes s) := by
  obtain ⟨buf, evs, c, e, -⟩ := receive_frame bytes s
  rw [e]
  exact ⟨rfl, List.prefix_append _ _, List.prefix_rfl, id⟩

theorem outputsKept_refuse (r : RefuseReason) (s : State) : OutputsKept s (refuse r s) :=
  ⟨rfl, List.prefix_rfl, List.prefix_rfl, fun _ => rfl⟩

theorem outputsKept_switchEffect {k : Byte} {s t : State} (h : SwitchEffect k s t) : OutputsKept s t := by
  cases h with
  | updated sw evs => exact ⟨rfl, List.prefix_append _ _, List.prefix_rfl, id⟩
  | refused r => exact outputsKept_refuse r s

theorem outputsKept_exec {i : Instr} {s t : State} (h : exec i s = .next t) : OutputsKept s t := by
  cases exec_effect h with
  | sent => exact ⟨rfl, List.prefix_rfl, List.prefix_append _ _, id⟩
  | emitted => exact ⟨rfl, List.prefix_append _ _, List.prefix_rfl, id⟩
  | received bytes => exact outputsKept_receive bytes s
  | switched k _ effect => exact outputsKept_switchEffect effect
  | kept | bound | closed | restarted => exact ⟨rfl, List.prefix_rfl, List.prefix_rfl, id⟩

/-- A step does what an operation, a refusal or a read does to the state with the inputs and the counter moved on, and these
are no outputs. -/
theorem outputsKept_step {s t : State} (h : step s = .next t) : OutputsKept s t := by
  obtain ⟨-, ⟨i, inputs, turn, run⟩ | ⟨r, inputs, rfl⟩ | ⟨inputs, rfl⟩⟩ := step_cases h
  · obtain ⟨cfg, ev, txstream, refused⟩ := outputsKept_exec run
    exact ⟨cfg, ev, txstream, refused⟩
  · exact ⟨rfl, List.prefix_rfl, List.prefix_rfl, fun _ => rfl⟩
  · exact ⟨rfl, List.prefix_rfl, List.prefix_rfl, id⟩

/-- Settles O59: each kind of step keeps the parameters, the outputs and the mark. -/
theorem outputsAndMarkAreKept : Obligations.OutputsAndMarkAreKept := by
  intro s t h
  obtain ⟨cfg, ev, txstream, refused⟩ := outputsKept_step h
  exact ⟨cfg, ev, txstream, refused⟩

/-! ## The values that the registers never read -/

section RegisterFields

variable {s : State} {w : Switch}

theorem reads_connStatus_iff {v : Word32} : Reads 0x000 s v ↔ regConnStatus s = v := Option.some_inj

/-- The four registers of switch k stand from 0x100 + 4k on (10_state.md R34). -/
theorem regView_switch (off : Nat) (hoff : off < 4) (k : Nat) (s : State) :
    regView (0x100 + off + 4 * k) s = (s.sw[k]?).map (switchRegister off) := by
  have hk : (0x100 + off + 4 * k - 0x100) / 4 = k := by omega
  have ho : (0x100 + off + 4 * k - 0x100) % 4 = off := by omega
  unfold regView
  rw [if_neg (by omega), if_neg (by omega), if_neg (by omega), if_neg (by omega), if_neg (by omega), hk, ho]

theorem reads_switch_iff (off : Nat) (hoff : off < 4) {k : Nat} {v : Word32} :
    Reads (0x100 + off + 4 * k) s v ↔ ∃ w, s.sw[k]? = some w ∧ switchRegister off w = v := by
  rw [Reads, regView_switch off hoff, Option.map_eq_some_iff]

theorem connBits_ne_three (c : Conn) : connBits c ≠ 3 := by cases c <;> decide

theorem modeBits_eq_three_iff {m : Mode} : modeBits m = 3 ↔ m = .reserved := by cases m <;> decide

theorem regConnStatus_conn (s : State) : (regConnStatus s).extractLsb' 0 2 = connBits s.conn :=
  BitVec.extractLsb'_append_eq_right

theorem regSwCfg_mode (w : Switch) : (regSwCfg w).extractLsb' 0 2 = modeBits w.mode :=
  BitVec.extractLsb'_append_eq_right

theorem regSwStatus_tmrArmed (w : Switch) : (regSwStatus w).extractLsb' 1 1 = BitVec.ofBool w.tmrArmed :=
  (BitVec.extractLsb'_append_eq_of_le (by decide)).trans BitVec.extractLsb'_append_eq_right

theorem regSwStatus_trackedValid (w : Switch) : (regSwStatus w).extractLsb' 2 1 = BitVec.ofBool w.trackedValid :=
  (BitVec.extractLsb'_append_eq_of_le (by decide)).trans <|
    (BitVec.extractLsb'_append_eq_of_le (by decide)).trans BitVec.extractLsb'_append_eq_right

theorem regSwStatus_trackedValue (w : Switch) : (regSwStatus w).extractLsb' 8 8 = w.trackedValue :=
  (BitVec.extractLsb'_append_eq_of_le (by decide)).trans <|
    (BitVec.extractLsb'_append_eq_of_le (by decide)).trans <|
      (BitVec.extractLsb'_append_eq_of_le (by decide)).trans <|
        (BitVec.extractLsb'_append_eq_of_le (by decide)).trans BitVec.extractLsb'_append_eq_right

theorem ofBool_eq_zero_iff {b : Bool} : BitVec.ofBool b = 0 ↔ b = false := BitVec.ofBool_eq_iff_eq (b' := false)

/-- The registers of every switch agree with one of the parameters. -/
theorem switchInv_of_getElem? (inv : MachineInv s) {k : Nat} (hw : s.sw[k]? = some w) :
    ∃ c ∈ s.cfg.cfgInit, SwitchInv c w := by
  obtain ⟨hk, rfl⟩ := List.getElem?_eq_some_iff.mp hw
  have hc : k < s.cfg.cfgInit.length := by rwa [inv.switches.length_eq]
  exact ⟨_, List.getElem_mem hc, inv.switches.get hc hk⟩

theorem cfgInitOk_of_mem {c : Config} (h : configOk c = true) {x : CfgInit} (hx : x ∈ c.cfgInit) :
    cfgInitOk x = true := by
  simp only [configOk, Bool.and_eq_true, List.all_eq_true] at h
  obtain ⟨⟨⟨⟨⟨⟨-, inits⟩, -⟩, -⟩, -⟩, -⟩, -⟩ := h
  exact inits x hx

theorem mode_ne_reserved_of_cfgInitOk {x : CfgInit} (h : cfgInitOk x = true) : x.mode ≠ .reserved := by
  simp only [cfgInitOk, Bool.and_eq_true, decide_eq_true_eq] at h
  exact h.1

end RegisterFields

/-- Settles O55: each field is the register's bits of the state, where the invariant excludes the value. -/
theorem hardwiredRegisterFields : Obligations.HardwiredRegisterFields := by
  intro s inv
  refine ⟨fun v hv => ?_, fun k _ => ⟨fun v hv => ?_, fun status timer hstatus htimer => ?_⟩⟩
  · rw [← reads_connStatus_iff.mp hv, regConnStatus_conn]
    exact connBits_ne_three s.conn
  · obtain ⟨w, hw, rfl⟩ := (reads_switch_iff 0 (by decide)).mp hv
    obtain ⟨c, hc, wInv⟩ := switchInv_of_getElem? inv hw
    change (regSwCfg w).extractLsb' 0 2 ≠ 3
    rw [regSwCfg_mode, Ne, modeBits_eq_three_iff, wInv.mode]
    exact mode_ne_reserved_of_cfgInitOk (cfgInitOk_of_mem inv.config hc)
  · obtain ⟨w, hw, rfl⟩ := (reads_switch_iff 2 (by decide)).mp hstatus
    obtain ⟨w', hw', rfl⟩ := (reads_switch_iff 3 (by decide)).mp htimer
    obtain rfl : w = w' := Option.some_inj.mp (hw.symm.trans hw')
    obtain ⟨c, -, wInv⟩ := switchInv_of_getElem? inv hw
    change ((regSwStatus w).extractLsb' 1 1 = 0 → regSwTimer w = 0) ∧
      ((regSwStatus w).extractLsb' 2 1 = 0 → (regSwStatus w).extractLsb' 8 8 = 0)
    rw [regSwStatus_tmrArmed, regSwStatus_trackedValid, regSwStatus_trackedValue, ofBool_eq_zero_iff, ofBool_eq_zero_iff]
    refine ⟨fun unarmed => ?_, wInv.untracked⟩
    rw [regSwTimer, wInv.unarmed unarmed]
    rfl

end Sys2Proof.Machine
end

section
/-! SUPPORT. The encoding of frames and of SEND (30_encoding.md): what escaping and unescaping do to a byte and to a list, what
the units of a span stand for, the markers and the length of a frame, and how the strings of SEND are read. -/

namespace Sys2Proof.Machine

/-! ## Escaping and unescaping -/

section Escaping

variable {b : Byte}

theorem escapeByte_low (h : b < 0x10) : escapeByte b = [escMarker, b ^^^ escMask] := if_pos h

theorem escapeByte_high (h : 0x10 ≤ b) : escapeByte b = [b] := if_neg (BitVec.not_lt.mpr h)

@[simp] theorem escape_nil : escape [] = [] := rfl

@[simp] theorem escape_cons (b : Byte) (l : List Byte) : escape (b :: l) = escapeByte b ++ escape l := List.flatMap_cons

@[simp] theorem escape_append (l r : List Byte) : escape (l ++ r) = escape l ++ escape r := List.flatMap_append

@[simp] theorem unescape_nil : unescape [] = [] := rfl

@[simp] theorem unescape_dangling : unescape [escMarker] = [] := rfl

@[simp] theorem unescape_esc (c : Byte) (rest : List Byte) :
    unescape (escMarker :: c :: rest) = (c ^^^ escMask) :: unescape rest := by
  rw [unescape, if_pos rfl]

theorem unescape_cons (h : b ≠ escMarker) (rest : List Byte) : unescape (b :: rest) = b :: unescape rest := by
  cases rest <;> simp [unescape, h]

/-- The escaped form of a byte is read as that byte, whatever follows: the two XORs cancel. -/
theorem unescape_escapeByte_append (b : Byte) (rest : List Byte) :
    unescape (escapeByte b ++ rest) = b :: unescape rest := by
  by_cases h : b < 0x10
  · rw [escapeByte_low h]
    simp
  · have high : 0x10 ≤ b := BitVec.not_lt.mp h
    have noMarker : b ≠ escMarker := by rintro rfl; exact absurd high (by decide)
    rw [escapeByte_high high]
    exact unescape_cons noMarker rest

theorem unescape_escape_append (body rest : List Byte) : unescape (escape body ++ rest) = body ++ unescape rest := by
  induction body with
  | nil => rfl
  | cons b body ih => rw [escape_cons, List.append_assoc, unescape_escapeByte_append, ih, List.cons_append]

end Escaping

/-- Settles O14: the equations of `unescape`, and its undoing of `escape` by induction on the body. -/
theorem unescapeUndoesEscape : Obligations.UnescapeUndoesEscape :=
  ⟨unescape_nil, unescape_dangling, unescape_esc, fun _ rest h => unescape_cons h rest, unescape_escape_append⟩

/-! ## The units of a span -/

/-- What a byte that begins no pair stands for. -/
theorem wireValue_wireUnit (b : Byte) : wireValue (wireUnit b) = if b = escMarker then [] else [b] := by
  unfold wireUnit
  split
  · next h => subst h; rfl
  split
  · rfl
  split
  · next h => subst h; rfl
  split <;> rfl

/-- An escape marker and the byte after it stand for the same, whether or not the pair is canonical. -/
theorem wireValue_escUnit (c : Byte) : wireValue (escUnit c) = [c ^^^ escMask] := by
  unfold escUnit
  split <;> rfl

/-- Before a byte that is no marker of a frame, an escape marker always begins a pair. -/
theorem escPair_iff {b c : Byte} (hs : c ≠ startMarker) (he : c ≠ endMarker) : escPair b c = true ↔ b = escMarker := by
  simp [escPair, hs, he]

theorem unescape_eq_flatMap_wireUnits (span : List Byte) (hs : startMarker ∉ span) (he : endMarker ∉ span) :
    unescape span = (wireUnits span).flatMap wireValue := by
  induction span using wireUnits.induct with
  | case1 => rfl
  | case2 b => simp [wireUnits, wireValue_wireUnit, unescape]
  | case3 b c rest pair ih =>
    simp only [List.mem_cons, not_or] at hs he
    obtain ⟨-, hcs, hs⟩ := hs
    obtain ⟨-, hce, he⟩ := he
    obtain rfl := (escPair_iff (Ne.symm hcs) (Ne.symm hce)).mp pair
    rw [unescape_esc, wireUnits, if_pos pair, List.flatMap_cons, wireValue_escUnit, ih hs he, List.singleton_append]
  | case4 b c rest alone ih =>
    have noMarker : b ≠ escMarker := by
      rwa [Ne, ← escPair_iff (c := c) (fun h => hs (by simp [h])) (fun h => he (by simp [h]))]
    rw [unescape_cons noMarker, wireUnits, if_neg alone, List.flatMap_cons, wireValue_wireUnit, if_neg noMarker,
      ih (List.not_mem_of_not_mem_cons hs) (List.not_mem_of_not_mem_cons he), List.singleton_append]

/-- Settles O34: by the recursion of `wireUnits`; an escape marker always takes the next byte with it. -/
theorem unescapeByUnits : Obligations.UnescapeByUnits := unescape_eq_flatMap_wireUnits

/-! ## The markers of a frame -/

/-- The second byte of the escape pair of a low byte is in 0x10..0x1F. -/
theorem escaped_range : ∀ b : Byte, b < 0x10 → 0x10 ≤ b ^^^ escMask ∧ b ^^^ escMask ≤ 0x1F := by decide

/-- The two shapes of an escaped byte (R74). -/
theorem escapeByte_cases (b : Byte) :
    (∃ e : Byte, 0x10 ≤ e ∧ e ≤ 0x1F ∧ escapeByte b = [escMarker, e]) ∨ (0x10 ≤ b ∧ escapeByte b = [b]) := by
  by_cases h : b < 0x10
  · obtain ⟨lower, upper⟩ := escaped_range b h
    exact .inl ⟨_, lower, upper, escapeByte_low h⟩
  · have high : 0x10 ≤ b := BitVec.not_lt.mp h
    exact .inr ⟨high, escapeByte_high high⟩

theorem mem_escape {x : Byte} {l : List Byte} (h : x ∈ escape l) : x = escMarker ∨ 0x10 ≤ x := by
  obtain ⟨b, -, hx⟩ := List.mem_flatMap.mp h
  rcases escapeByte_cases b with ⟨e, lower, -, shape⟩ | ⟨high, shape⟩
  · rw [shape, List.mem_pair] at hx
    rcases hx with rfl | rfl
    · exact .inl rfl
    · exact .inr lower
  · rw [shape, List.mem_singleton] at hx
    exact .inr (hx ▸ high)

theorem startMarker_notMem_escape (l : List Byte) : startMarker ∉ escape l :=
  fun h => absurd (mem_escape h) (by decide)

theorem endMarker_notMem_escape (l : List Byte) : endMarker ∉ escape l :=
  fun h => absurd (mem_escape h) (by decide)

theorem count_startMarker_frameEncode (cmd : Word16) (payload : List Byte) :
    (frameEncode cmd payload).count startMarker = 1 := by
  rw [frameEncode, List.count_append, List.count_append, List.count_eq_zero.mpr (startMarker_notMem_escape _)]
  rfl

theorem count_endMarker_frameEncode (cmd : Word16) (payload : List Byte) :
    (frameEncode cmd payload).count endMarker = 1 := by
  rw [frameEncode, List.count_append, List.count_append, List.count_eq_zero.mpr (endMarker_notMem_escape _)]
  rfl

/-- Settles O15: the units are the escaped bytes of the body, none of which holds a marker of a frame. -/
theorem encodedFrameMarkers : Obligations.EncodedFrameMarkers := by
  intro cmd payload
  refine ⟨(frameBody cmd payload).map escapeByte, ?_, fun u hu => ?_, count_startMarker_frameEncode cmd payload,
    count_endMarker_frameEncode cmd payload⟩
  · rw [← List.flatMap_def]
    rfl
  · obtain ⟨b, -, rfl⟩ := List.mem_map.mp hu
    exact (escapeByte_cases b).imp_right fun ⟨high, shape⟩ => ⟨b, high, shape⟩

/-! ## The length of a frame -/

theorem length_escapeByte (b : Byte) : (escapeByte b).length = if b < 0x10 then 2 else 1 := by
  unfold escapeByte
  split <;> rfl

theorem length_escape (l : List Byte) : (escape l).length = (l.map fun b => if b < 0x10 then 2 else 1).sum := by
  simp only [escape, List.length_flatMap, length_escapeByte]

theorem length_escapeByte_bounds (b : Byte) : 1 ≤ (escapeByte b).length ∧ (escapeByte b).length ≤ 2 := by
  rw [length_escapeByte]
  split <;> decide

theorem length_escape_bounds (l : List Byte) : l.length ≤ (escape l).length ∧ (escape l).length ≤ 2 * l.length := by
  induction l with
  | nil => exact ⟨le_rfl, le_rfl⟩
  | cons b l ih =>
    have := length_escapeByte_bounds b
    rw [escape_cons, List.length_append, List.length_cons]
    omega

theorem length_frameEncode (cmd : Word16) (payload : List Byte) :
    (frameEncode cmd payload).length = 2 + (escape (frameBody cmd payload)).length := by
  rw [frameEncode, List.length_append, List.length_append, List.length_singleton, List.length_singleton]
  omega

/-- The length of a frame, field by field. -/
theorem length_frameEncode_fields (cmd : Word16) (payload : List Byte) :
    (frameEncode cmd payload).length = 2 + (escape (be16 cmd)).length + (escape (be16 (lengthField payload))).length +
      (escapeByte (checksum cmd (lengthField payload) payload)).length + (escape payload).length := by
  simp only [length_frameEncode, frameBody, escape_append, escape_cons, escape_nil, List.append_nil, List.length_append]
  omega

theorem be16_lengthField_of_lt {payload : List Byte} (h : payload.length < 256) :
    be16 (lengthField payload) = [0x00, (lengthField payload).extractLsb' 0 8] := by
  have high : (lengthField payload).extractLsb' 8 8 = 0x00 := by
    apply BitVec.eq_of_toNat_eq
    rw [lengthField, BitVec.extractLsb'_toNat, BitVec.toNat_ofNat, Nat.shiftRight_eq_div_pow]
    change _ = 0
    omega
  rw [be16, high]

theorem length_escape_be16_bounds (v : Word16) : 2 ≤ (escape (be16 v)).length ∧ (escape (be16 v)).length ≤ 4 :=
  length_escape_bounds (be16 v)

/-- The high length byte of a short payload is 0x00, which is escaped. -/
theorem length_escape_be16_lengthField_of_lt {payload : List Byte} (h : payload.length < 256) :
    3 ≤ (escape (be16 (lengthField payload))).length := by
  have high : (escapeByte 0x00).length = 2 := rfl
  have low := length_escapeByte_bounds ((lengthField payload).extractLsb' 0 8)
  rw [be16_lengthField_of_lt h, escape_cons, escape_cons, List.length_append, List.length_append]
  omega

/-- Where the payload has fewer bytes, more of the length bytes are 0x00 and escaped. -/
theorem le_length_frameEncode (cmd : Word16) (payload : List Byte) : 9 ≤ (frameEncode cmd payload).length := by
  have cmdLength := length_escape_be16_bounds cmd
  have lengthLength := length_escape_be16_bounds (lengthField payload)
  have chkLength := length_escapeByte_bounds (checksum cmd (lengthField payload) payload)
  have payloadLength := length_escape_bounds payload
  rw [length_frameEncode_fields]
  cases payload with
  | nil =>
    have both : (escape (be16 (lengthField []))).length = 4 := rfl
    omega
  | cons b rest =>
    rw [List.length_cons] at payloadLength
    by_cases short : (b :: rest).length < 256
    · have high := length_escape_be16_lengthField_of_lt short
      omega
    · rw [List.length_cons] at short
      omega

/-- The longest payload has the length bytes 0xFF, 0xFF, which are not escaped. -/
theorem length_escape_be16_lengthField_max {payload : List Byte} (h : payload.length = 65535) :
    (escape (be16 (lengthField payload))).length = 2 := by
  rw [lengthField, h]
  rfl

theorem length_frameEncode_le (cmd : Word16) {payload : List Byte} (h : payload.length ≤ 65535) :
    (frameEncode cmd payload).length ≤ 131080 := by
  have cmdLength := length_escape_be16_bounds cmd
  have lengthLength := length_escape_be16_bounds (lengthField payload)
  have chkLength := length_escapeByte_bounds (checksum cmd (lengthField payload) payload)
  have payloadLength := length_escape_bounds payload
  rw [length_frameEncode_fields]
  by_cases longest : payload.length = 65535
  · have plain := length_escape_be16_lengthField_max longest
    omega
  · omega

theorem xorBytes_replicate_zero (n : Nat) : xorBytes (List.replicate n 0) = 0 := by
  induction n with
  | zero => rfl
  | succ n ih => exact (BitVec.zero_xor).trans ih

theorem checksum_zeros (n : Nat) : checksum 0x0000 0xFFFF (List.replicate n 0x00) = 0x00 := by
  have fields : xorBytes (be16 0x0000 ++ be16 0xFFFF ++ List.replicate n 0x00) =
    0x00 ^^^ (0x00 ^^^ (0xFF ^^^ (0xFF ^^^ xorBytes (List.replicate n 0)))) := rfl
  rw [checksum, fields, xorBytes_replicate_zero]
  rfl

theorem length_escape_zeros (n : Nat) : (escape (List.replicate n 0x00)).length = 2 * n := by
  induction n with
  | zero => rfl
  | succ n ih =>
    rw [List.replicate_succ, escape_cons, List.length_append, ih, length_escapeByte, if_pos (by decide)]
    omega

/-- The frame of the longest payload of zeros has no unescaped byte in its body but the two length bytes. -/
theorem length_frameEncode_zeros {n : Nat} (h : n = 65535) :
    (frameEncode 0x0000 (List.replicate n 0x00)).length = 131080 := by
  have field : lengthField (List.replicate n 0x00) = 0xFFFF := by
    rw [lengthField, List.length_replicate, h]
    rfl
  have fields : 2 + (escape (be16 0x0000)).length + (escape (be16 0xFFFF)).length + (escapeByte 0x00).length = 10 := rfl
  rw [length_frameEncode_fields, field, checksum_zeros, fields, length_escape_zeros]
  omega

/-- Settles O17: the length is counted field by field; the bounds turn on which length bytes are escaped. -/
theorem wireLengthBounds : Obligations.WireLengthBounds := by
  refine ⟨fun cmd payload => ?_, fun cmd payload => ⟨fun short => ?_, ?_⟩, rfl,
    fun cmd payload h => ⟨le_length_frameEncode cmd payload, length_frameEncode_le cmd h⟩, rfl, checksum_zeros 65535,
    length_frameEncode_zeros rfl⟩
  · rw [length_frameEncode, length_escape]
  · rw [frameBody, be16_lengthField_of_lt short]
    rfl
  · rintro rfl
    rfl

/-! ## The strings of SEND -/

/-- The table of the hex digits, in either case (R94). -/
def hexTable : List (Char × Nat) :=
  [('0', 0), ('1', 1), ('2', 2), ('3', 3), ('4', 4), ('5', 5), ('6', 6), ('7', 7), ('8', 8), ('9', 9),
   ('a', 10), ('b', 11), ('c', 12), ('d', 13), ('e', 14), ('f', 15),
   ('A', 10), ('B', 11), ('C', 12), ('D', 13), ('E', 14), ('F', 15)]

theorem hexDigit_of_mem : ∀ p ∈ hexTable, hexDigit p.1 = some p.2 := by decide

theorem toNat_lt_of_hexDigit {c : Char} {v : Nat} (h : hexDigit c = some v) : c.toNat < 103 := by
  unfold hexDigit at h
  split at h
  · next digit => exact digit.2.trans_lt (by decide)
  split at h
  · next lower => exact lower.2.trans_lt (by decide)
  split at h
  · next upper => exact upper.2.trans_lt (by decide)
  · cases h

theorem mem_hexTable_of_lt : ∀ n < 103, ∀ v ∈ hexDigit (Char.ofNat n), (Char.ofNat n, v) ∈ hexTable := by decide

theorem hexDigit_eq_some_iff (c : Char) (v : Nat) : hexDigit c = some v ↔ (c, v) ∈ hexTable := by
  refine ⟨fun h => ?_, hexDigit_of_mem (c, v)⟩
  rw [← Char.ofNat_toNat c] at h ⊢
  exact mem_hexTable_of_lt _ (toNat_lt_of_hexDigit ((Char.ofNat_toNat c) ▸ h)) v h

theorem snd_lt_of_mem_hexTable : ∀ p ∈ hexTable, p.2 < 16 := by decide

theorem hexDigit_lt {c : Char} {v : Nat} (h : hexDigit c = some v) : v < 16 :=
  snd_lt_of_mem_hexTable _ ((hexDigit_eq_some_iff c v).mp h)

theorem hexByte_eq_some_iff {hi lo : Char} {b : Byte} :
    hexByte hi lo = some b ↔
      ∃ h l, hexDigit hi = some h ∧ hexDigit lo = some l ∧ b = BitVec.ofNat 8 (16 * h + l) := by
  unfold hexByte
  rcases hexDigit hi with _ | h <;> rcases hexDigit lo with _ | l <;> simp [eq_comm]

theorem hexBytes_cons_eq_some_iff {hi lo : Char} {rest : List Char} {out : List Byte} :
    hexBytes (hi :: lo :: rest) = some out ↔
      ∃ b bs, hexByte hi lo = some b ∧ hexBytes rest = some bs ∧ out = b :: bs := by
  rw [hexBytes]
  rcases hexByte hi lo with _ | b <;> rcases hexBytes rest with _ | bs <;> simp [eq_comm]

theorem hexBytes_pairs {digits : List (Char × Char)} {bytes : List Byte}
    (h : List.Forall₂ (fun d b => hexByte d.1 d.2 = some b) digits bytes) :
    hexBytes (digits.flatMap fun d => [d.1, d.2]) = some bytes := by
  induction h with
  | nil => rfl
  | cons first _ ih => exact hexBytes_cons_eq_some_iff.mpr ⟨_, _, first, ih, rfl⟩

/-- A string that is read has two characters for each byte, and every character is a hex digit. -/
theorem hexBytes_shape : ∀ {l : List Char} {bytes : List Byte}, hexBytes l = some bytes →
    l.length = 2 * bytes.length ∧ ∀ c ∈ l, hexDigit c ≠ none
  | [], _, h => by cases h; exact ⟨rfl, by simp⟩
  | [_], _, h => by cases h
  | hi :: lo :: rest, _, h => by
    obtain ⟨b, bs, first, others, rfl⟩ := hexBytes_cons_eq_some_iff.mp h
    obtain ⟨x, y, high, low, -⟩ := hexByte_eq_some_iff.mp first
    obtain ⟨count, digits⟩ := hexBytes_shape others
    refine ⟨by rw [List.length_cons, List.length_cons, List.length_cons, count]; omega, ?_⟩
    simpa [high, low] using digits

theorem expandSend_eq_some_iff {cmd payload : List Char} {i : Instr} :
    expandSend cmd payload = some i ↔ ∃ c1 c0 bytes, hexBytes cmd = some [c1, c0] ∧ hexBytes payload = some bytes ∧
      bytes.length ≤ maxPayload ∧ i = .enc (u16 c1 c0) bytes := by
  unfold expandSend
  split
  · next c1 c0 bytes hcmd hpayload => simp [hcmd, hpayload, eq_comm]
  · next other =>
    refine ⟨nofun, ?_⟩
    rintro ⟨c1, c0, bytes, hcmd, hpayload, -⟩
    exact (other c1 c0 bytes hcmd hpayload).elim

theorem toNat_u16 (hi lo : Byte) : (u16 hi lo).toNat = 256 * hi.toNat + lo.toNat := by
  have append : u16 hi lo = hi ++ lo := by
    rw [BitVec.append_def, BitVec.shiftLeftZeroExtend_eq, BitVec.setWidth'_eq]
    rfl
  rw [append, BitVec.toNat_append, ← Nat.shiftLeft_add_eq_or_of_lt lo.isLt, Nat.shiftLeft_eq, Nat.mul_comm]

theorem u16_ofNat {hi lo : Nat} (hlo : lo < 256) :
    u16 (BitVec.ofNat 8 hi) (BitVec.ofNat 8 lo) = BitVec.ofNat 16 (256 * hi + lo) := by
  apply BitVec.eq_of_toNat_eq
  rw [toNat_u16, BitVec.toNat_ofNat, BitVec.toNat_ofNat, BitVec.toNat_ofNat]
  omega

/-- Four digits spell their value, the first the most significant. -/
theorem hexBytes_four {h3 h2 h1 h0 : Char} {v3 v2 v1 v0 : Nat} (d3 : hexDigit h3 = some v3) (d2 : hexDigit h2 = some v2)
    (d1 : hexDigit h1 = some v1) (d0 : hexDigit h0 = some v0) :
    hexBytes [h3, h2, h1, h0] = some [BitVec.ofNat 8 (16 * v3 + v2), BitVec.ofNat 8 (16 * v1 + v0)] := by
  have high := hexByte_eq_some_iff.mpr ⟨_, _, d3, d2, rfl⟩
  have low := hexByte_eq_some_iff.mpr ⟨_, _, d1, d0, rfl⟩
  exact hexBytes_pairs (digits := [(h3, h2), (h1, h0)]) (.cons high (.cons low .nil))

/-- What an expansion asks of the two strings (R94). -/
theorem expandSend_shape {cmd payload : List Char} {i : Instr} (h : expandSend cmd payload = some i) :
    cmd.length = 4 ∧ payload.length % 2 = 0 ∧ (∀ c ∈ cmd, hexDigit c ≠ none) ∧ (∀ c ∈ payload, hexDigit c ≠ none) ∧
      payload.length ≤ 2 * 65535 := by
  obtain ⟨c1, c0, bytes, hcmd, hpayload, fits, -⟩ := expandSend_eq_some_iff.mp h
  obtain ⟨cmdCount, cmdDigits⟩ := hexBytes_shape hcmd
  obtain ⟨payloadCount, payloadDigits⟩ := hexBytes_shape hpayload
  rw [maxPayload] at fits
  exact ⟨cmdCount, by omega, cmdDigits, payloadDigits, by omega⟩

theorem expandSend_digits {h3 h2 h1 h0 : Char} {v3 v2 v1 v0 : Nat} {digits : List (Char × Char)} {bytes : List Byte}
    (d3 : hexDigit h3 = some v3) (d2 : hexDigit h2 = some v2) (d1 : hexDigit h1 = some v1) (d0 : hexDigit h0 = some v0)
    (h : List.Forall₂ (fun d b => hexByte d.1 d.2 = some b) digits bytes) (fits : bytes.length ≤ maxPayload) :
    expandSend [h3, h2, h1, h0] (digits.flatMap fun d => [d.1, d.2]) =
      some (.enc (BitVec.ofNat 16 (4096 * v3 + 256 * v2 + 16 * v1 + v0)) bytes) := by
  refine expandSend_eq_some_iff.mpr ⟨_, _, bytes, hexBytes_four d3 d2 d1 d0, hexBytes_pairs h, fits, ?_⟩
  have := hexDigit_lt d1
  have := hexDigit_lt d0
  rw [u16_ofNat (by omega)]
  congr 2
  omega

/-- A step takes the input at the head (20_memory.md R59). -/
theorem step_input {s : State} {inp : Input} {rest : List Input} (config : configOk s.cfg = true)
    (waits : s.pending = inp :: rest) : step s = perform inp { s with pending := rest } := by
  rw [step, if_pos config, takeTurn, waits]

theorem perform_send_some {cmd payload : List Char} {i : Instr} (h : expandSend cmd payload = some i) (s : State) :
    perform (.send cmd payload) s = exec i s := by
  simp [perform, performSend, h]

theorem perform_send_none {cmd payload : List Char} (h : expandSend cmd payload = none) (s : State) :
    perform (.send cmd payload) s = .next (afterRefusal .badSendSyntax s) := by
  simp [perform, performSend, h, refuse_eq]

/-- Settles O11: the digits are a table of 22 rows, and an expansion says how both strings were read. -/
theorem sendExpandsToEnc : Obligations.SendExpandsToEnc := by
  refine ⟨hexDigit_eq_some_iff, fun h3 h2 h1 h0 v3 v2 v1 v0 digits bytes d3 d2 d1 d0 pairs fits => ?_,
    fun cmd payload bad => ?_, fun s cmd payload rest config waits => ⟨fun i h => ?_, fun h => ?_⟩⟩
  · exact expandSend_digits d3 d2 d1 d0 (pairs.imp fun _ _ => hexByte_eq_some_iff.mpr) fits
  · refine Option.eq_none_iff_forall_ne_some.mpr fun i h => ?_
    obtain ⟨four, even, cmdDigits, payloadDigits, fits⟩ := expandSend_shape h
    rcases bad with bad | bad | ⟨c, hc, bad⟩ | ⟨c, hc, bad⟩ | bad
    · exact bad four
    · omega
    · exact cmdDigits c hc bad
    · exact payloadDigits c hc bad
    · omega
  · rw [step_input config waits, perform_send_some h]
  · rw [step_input config waits, perform_send_none h]

end Sys2Proof.Machine
end

section
/-! SUPPORT. The frame codec (40_codec.md): the fields of a body, the checks of `Decode`, the checksum as the exclusive or of
a body, what one flipped bit does to a body, and the operations ENC and DEC with their command words. -/

namespace Sys2Proof.Machine

/-! ## The fields of a body -/

theorem u16_be16 (v : Word16) : u16 (v.extractLsb' 8 8) (v.extractLsb' 0 8) = v := by
  apply BitVec.eq_of_toNat_eq
  rw [toNat_u16, BitVec.extractLsb'_toNat, BitVec.extractLsb'_toNat, Nat.shiftRight_eq_div_pow, Nat.shiftRight_eq_div_pow]
  omega

theorem be16_u16 (hi lo : Byte) : be16 (u16 hi lo) = [hi, lo] := by
  have high : (u16 hi lo).extractLsb' 8 8 = hi := by
    apply BitVec.eq_of_toNat_eq
    rw [BitVec.extractLsb'_toNat, toNat_u16, Nat.shiftRight_eq_div_pow]
    omega
  have low : (u16 hi lo).extractLsb' 0 8 = lo := by
    apply BitVec.eq_of_toNat_eq
    rw [BitVec.extractLsb'_toNat, toNat_u16, Nat.shiftRight_eq_div_pow]
    omega
  rw [be16, high, low]

/-- The fields of a body in their order (30_encoding.md R70), with any length field and any checksum. -/
def bodyOf (cmd n : Word16) (chk : Byte) (payload : List Byte) : List Byte := be16 cmd ++ be16 n ++ [chk] ++ payload

theorem frameBody_eq_bodyOf (cmd : Word16) (payload : List Byte) :
    frameBody cmd payload = bodyOf cmd (lengthField payload) (checksum cmd (lengthField payload) payload) payload := rfl

theorem length_bodyOf (cmd n : Word16) (chk : Byte) (payload : List Byte) :
    (bodyOf cmd n chk payload).length = 5 + payload.length := Nat.add_comm payload.length 5

theorem bodyLength_bodyOf (cmd n : Word16) (chk : Byte) (payload : List Byte) :
    bodyLength (bodyOf cmd n chk payload) = n.toNat := congrArg BitVec.toNat (u16_be16 n)

/-- Five bytes are a header. -/
theorem exists_bodyOf {l : List Byte} (h : 5 ≤ l.length) : ∃ cmd n chk rest, l = bodyOf cmd n chk rest := by
  match l with
  | c1 :: c0 :: n1 :: n0 :: chk :: rest =>
    refine ⟨u16 c1 c0, u16 n1 n0, chk, rest, ?_⟩
    rw [bodyOf, be16_u16, be16_u16]
    rfl
  | [] | [_] | [_, _] | [_, _, _] | [_, _, _, _] => exact absurd h (by simp)

theorem toNat_lengthField {payload : List Byte} (h : payload.length ≤ 65535) :
    (lengthField payload).toNat = payload.length := by
  rw [lengthField, BitVec.toNat_ofNat]
  omega

/-! ## The checks of Decode -/

section Checks

variable {policy : SurplusPolicy} {cmd n : Word16} {chk : Byte} {rest : List Byte}

theorem parseBody_short {l : List Byte} (h : l.length < 5) : parseBody policy l = .truncHeader l.length := by
  match l with
  | [] | [_] | [_, _] | [_, _, _] | [_, _, _, _] => rfl
  | _ :: _ :: _ :: _ :: _ :: _ => exact absurd h (by simp)

@[simp] theorem parseBody_bodyOf : parseBody policy (bodyOf cmd n chk rest) = checkLength policy cmd n chk rest := by
  change checkLength policy (u16 _ _) (u16 _ _) chk rest = _
  rw [u16_be16, u16_be16]

theorem checkLength_short (h : rest.length < n.toNat) :
    checkLength policy cmd n chk rest = .truncPayload cmd n rest.length := if_pos h

theorem checkLength_overlong (h : n.toNat < rest.length) :
    checkLength .reject cmd n chk rest = .overlong cmd n rest.length := by
  rw [checkLength, if_neg h.not_gt, if_pos ⟨h, rfl⟩]

/-- The length check passes: there are no bytes too many, or they are ignored (R109). -/
theorem checkLength_pass (h : n.toNat = rest.length ∨ n.toNat < rest.length ∧ policy = .ignore) :
    checkLength policy cmd n chk rest = verifyChecksum cmd n chk (rest.take n.toNat) := by
  have long : ¬rest.length < n.toNat := by omega
  have noSurplus : ¬(n.toNat < rest.length ∧ policy = .reject) := by
    rintro ⟨more, rfl⟩
    rcases h with equal | ⟨-, other⟩
    · omega
    · exact SurplusPolicy.noConfusion other
  rw [checkLength, if_neg long, if_neg noSurplus]

theorem checkLength_exact (h : n.toNat = rest.length) :
    checkLength policy cmd n chk rest = verifyChecksum cmd n chk rest := by
  rw [checkLength_pass (.inl h), h, List.take_length]

theorem verifyChecksum_eq (h : checksum cmd n rest = chk) : verifyChecksum cmd n chk rest = .ok cmd n chk rest := if_pos h

theorem verifyChecksum_ne (h : checksum cmd n rest ≠ chk) :
    verifyChecksum cmd n chk rest = .chkErr cmd n chk (checksum cmd n rest) := if_neg h

theorem isValid_iff (r : DecodeResult) : isValid r = true ↔ ∃ cmd n chk p, r = .ok cmd n chk p := by
  cases r <;> simp [isValid]

end Checks

/-- Settles O19: each check of `Decode` has its lemma; a span of five bytes has the fields they read. -/
theorem decodeChecksInOrder : Obligations.DecodeChecksInOrder := by
  intro policy span
  refine ⟨parseBody_short, fun cmd n chk rest fields => ?_, exists_bodyOf, isValid_iff _⟩
  have decode : frameDecode policy span = checkLength policy cmd n chk rest := by
    rw [frameDecode, fields]
    exact parseBody_bodyOf
  rw [decode]
  refine ⟨checkLength_short, fun more reject => ?_, fun pass => ?_⟩
  · rw [reject, checkLength_overlong more]
  · rw [checkLength_pass pass]
    exact ⟨verifyChecksum_ne, verifyChecksum_eq⟩

/-! ## Decoding what was encoded -/

@[simp] theorem unescape_escape (l : List Byte) : unescape (escape l) = l := by
  simpa using unescape_escape_append l []

@[simp] theorem frameDecode_escape (policy : SurplusPolicy) (l : List Byte) :
    frameDecode policy (escape l) = parseBody policy l := by
  rw [frameDecode, unescape_escape]

/-- The span of a frame, between its two markers. -/
theorem span_frameEncode (cmd : Word16) (payload : List Byte) :
    (frameEncode cmd payload).tail.dropLast = escape (frameBody cmd payload) := List.dropLast_concat

/-- Settles O20: the span is the escaped body, whose length field is exact and whose checksum is its own. -/
theorem frameRoundTrip : Obligations.FrameRoundTrip := by
  intro cmd payload policy h
  rw [span_frameEncode, frameDecode_escape, frameBody_eq_bodyOf, parseBody_bodyOf, checkLength_exact (toNat_lengthField h)]
  exact verifyChecksum_eq rfl

/-- Settles O16: the frame is cut where the body is; what stands before and after is escaped for itself. -/
theorem bodyByteInFrame : Obligations.BodyByteInFrame := by
  intro cmd payload before after v body
  have frame : frameEncode cmd payload =
      [startMarker] ++ (escape before ++ (escapeByte v ++ escape after)) ++ [endMarker] := by
    rw [frameEncode, ← escape_cons, ← escape_append, ← body]
    rfl
  refine ⟨escape before, escape after, unescape_escape before, unescape_escape after, fun low => ?_, fun high => ?_⟩
  · rw [frame, escapeByte_low low]
    simp [startMarker, escMarker, escMask, endMarker]
  · rw [frame, escapeByte_high high]
    simp [startMarker, endMarker]

/-! ## The checksum -/

theorem xorBytes_cons (b : Byte) (l : List Byte) : xorBytes (b :: l) = b ^^^ xorBytes l := rfl

theorem xorBytes_append (l r : List Byte) : xorBytes (l ++ r) = xorBytes l ^^^ xorBytes r := by
  induction l with
  | nil => exact BitVec.zero_xor.symm
  | cons b l ih => rw [List.cons_append, xorBytes_cons, xorBytes_cons, ih, BitVec.xor_assoc]

theorem foldl_xor_eq_xorBytes (l : List Byte) (start : Byte) :
    l.foldl (fun acc b => acc ^^^ b) start = start ^^^ xorBytes l := by
  induction l generalizing start with
  | nil => exact BitVec.xor_zero.symm
  | cons b l ih => rw [List.foldl_cons, ih, xorBytes_cons, BitVec.xor_assoc]

theorem xorBytes_perm {l l' : List Byte} (h : l.Perm l') : xorBytes l = xorBytes l' :=
  have : Std.Commutative (fun a b : Byte => a ^^^ b) := ⟨BitVec.xor_comm⟩
  have : Std.Associative (fun a b : Byte => a ^^^ b) := ⟨BitVec.xor_assoc⟩
  h.foldr_op_eq

/-- Settles O18: the fields are joined by the exclusive or, whose order does not matter. -/
theorem checksumIsXor : Obligations.ChecksumIsXor := by
  refine ⟨fun cmd n payload => ?_, fun l l' => xorBytes_perm⟩
  have fields : xorBytes (be16 cmd ++ be16 n) =
      cmd.extractLsb' 8 8 ^^^ cmd.extractLsb' 0 8 ^^^ n.extractLsb' 8 8 ^^^ n.extractLsb' 0 8 := by
    simp [be16, xorBytes, BitVec.xor_assoc]
  rw [checksum, xorBytes_append, fields, foldl_xor_eq_xorBytes]

/-- A body's exclusive or is the difference of the two checksums. -/
theorem xorBytes_bodyOf (cmd n : Word16) (chk : Byte) (payload : List Byte) :
    xorBytes (bodyOf cmd n chk payload) = chk ^^^ checksum cmd n payload := by
  have chkFirst : (bodyOf cmd n chk payload).Perm (chk :: (be16 cmd ++ be16 n ++ payload)) := by
    rw [bodyOf, List.append_assoc]
    exact List.perm_middle
  exact xorBytes_perm chkFirst

theorem xorBytes_frameBody (cmd : Word16) (payload : List Byte) : xorBytes (frameBody cmd payload) = 0 := by
  rw [frameBody_eq_bodyOf, xorBytes_bodyOf]
  exact BitVec.xor_self

/-! ## One flipped bit -/

@[simp] theorem length_flipBit (l : List Byte) (i j : Nat) : (flipBit l i j).length = l.length := List.length_modify ..

theorem flippedBit_ne_zero : ∀ j < 8, 1#8 <<< j ≠ 0 := by decide

theorem xorBytes_flipBit {l : List Byte} {i : Nat} (h : i < l.length) (j : Nat) :
    xorBytes (flipBit l i j) = xorBytes l ^^^ 1#8 <<< j := by
  induction l generalizing i with
  | nil => exact absurd h (Nat.not_lt_zero i)
  | cons b l ih =>
    cases i with
    | zero =>
      change b ^^^ 1#8 <<< j ^^^ xorBytes l = b ^^^ xorBytes l ^^^ 1#8 <<< j
      rw [BitVec.xor_assoc, BitVec.xor_comm (1#8 <<< j), BitVec.xor_assoc]
    | succ i =>
      change b ^^^ xorBytes (flipBit l i j) = b ^^^ xorBytes l ^^^ 1#8 <<< j
      rw [ih (Nat.lt_of_succ_lt_succ h), BitVec.xor_assoc]

theorem xorBytes_flipBit_frameBody (cmd : Word16) {payload : List Byte} {i : Nat} (h : i < 5 + payload.length) (j : Nat) :
    xorBytes (flipBit (frameBody cmd payload) i j) = 1#8 <<< j := by
  rw [xorBytes_flipBit (by rwa [frameBody_eq_bodyOf, length_bodyOf]), xorBytes_frameBody]
  exact BitVec.zero_xor

theorem bodyLength_flipBit {i : Nat} (h : i < 2 ∨ 4 ≤ i) (l : List Byte) (j : Nat) :
    bodyLength (flipBit l i j) = bodyLength l := by
  have high : i ≠ 2 := by omega
  have low : i ≠ 3 := by omega
  simp only [bodyLength, flipBit, List.getD_eq_getElem?_getD, List.getElem?_modify_ne _ _ high,
    List.getElem?_modify_ne _ _ low]

/-- A body whose length field is exact but whose exclusive or is not zero has a checksum error. -/
theorem parseBody_chkErr (policy : SurplusPolicy) {l : List Byte} (header : l.length = 5 + bodyLength l)
    (damaged : xorBytes l ≠ 0) :
    ∃ cmd n chk computed, parseBody policy l = .chkErr cmd n chk computed ∧ chk ^^^ computed = xorBytes l := by
  obtain ⟨cmd, n, chk, rest, rfl⟩ := exists_bodyOf (l := l) (by omega)
  rw [length_bodyOf, bodyLength_bodyOf] at header
  rw [xorBytes_bodyOf] at damaged ⊢
  have differ : checksum cmd n rest ≠ chk := fun same => damaged (BitVec.xor_eq_zero_iff.mpr same.symm)
  refine ⟨cmd, n, chk, _, ?_, rfl⟩
  rw [parseBody_bodyOf, checkLength_exact (by omega), verifyChecksum_ne differ]

/-- A flip in the command_id, the checksum or the payload leaves the length exact, so the checksum reports it. -/
theorem parseBody_flipBit_chkErr (policy : SurplusPolicy) (cmd : Word16) {payload : List Byte} {i j : Nat}
    (fits : payload.length ≤ 65535) (hi : i < 5 + payload.length) (hj : j < 8) (place : i < 2 ∨ 4 ≤ i) :
    ∃ cmd' n chk computed, parseBody policy (flipBit (frameBody cmd payload) i j) = .chkErr cmd' n chk computed ∧
      chk ^^^ computed = 1#8 <<< j := by
  have flip := xorBytes_flipBit_frameBody cmd hi j
  have header : (flipBit (frameBody cmd payload) i j).length = 5 + bodyLength (flipBit (frameBody cmd payload) i j) := by
    rw [length_flipBit, bodyLength_flipBit place, frameBody_eq_bodyOf, length_bodyOf, bodyLength_bodyOf,
      toNat_lengthField fits]
  rw [← flip]
  exact parseBody_chkErr policy header (flip ▸ flippedBit_ne_zero j hj)

/-- A flip in the length field leaves the other fields, and gives another length. -/
theorem flipBit_lengthField (cmd n : Word16) (chk : Byte) (payload : List Byte) {i j : Nat} (place : i = 2 ∨ i = 3)
    (hj : j < 8) : ∃ n', n' ≠ n ∧ flipBit (bodyOf cmd n chk payload) i j = bodyOf cmd n' chk payload := by
  have fields : ∃ n', flipBit (bodyOf cmd n chk payload) i j = bodyOf cmd n' chk payload := by
    rcases place with rfl | rfl
    · refine ⟨u16 (n.extractLsb' 8 8 ^^^ 1#8 <<< j) (n.extractLsb' 0 8), ?_⟩
      rw [bodyOf, bodyOf, be16_u16]
      rfl
    · refine ⟨u16 (n.extractLsb' 8 8) (n.extractLsb' 0 8 ^^^ 1#8 <<< j), ?_⟩
      rw [bodyOf, bodyOf, be16_u16]
      rfl
  obtain ⟨n', flipped⟩ := fields
  refine ⟨n', ?_, flipped⟩
  rintro rfl
  have same := xorBytes_flipBit (l := bodyOf cmd n' chk payload) (i := i) (by rw [length_bodyOf]; omega) j
  rw [flipped] at same
  exact flippedBit_ne_zero j hj ((BitVec.xor_right_inj _).mp (same.symm.trans BitVec.xor_zero.symm))

/-- What a flip in the length field is reported as. -/
theorem parseBody_flipBit_lengthField (cmd : Word16) {payload : List Byte} {i j : Nat} (fits : payload.length ≤ 65535)
    (place : i = 2 ∨ i = 3) (hj : j < 8) :
    let flipped := flipBit (frameBody cmd payload) i j
    bodyLength flipped ≠ payload.length ∧
    (payload.length < bodyLength flipped → ∀ policy,
      parseBody policy flipped = .truncPayload cmd (BitVec.ofNat 16 (bodyLength flipped)) payload.length) ∧
    (bodyLength flipped < payload.length →
      parseBody .reject flipped = .overlong cmd (BitVec.ofNat 16 (bodyLength flipped)) payload.length) := by
  obtain ⟨n', changed, flipped⟩ :=
    flipBit_lengthField cmd (lengthField payload) (checksum cmd (lengthField payload) payload) payload place hj
  rw [frameBody_eq_bodyOf, flipped]
  simp only [bodyLength_bodyOf, parseBody_bodyOf, BitVec.ofNat_toNat, BitVec.setWidth_eq]
  refine ⟨?_, fun longer _ => checkLength_short longer, checkLength_overlong⟩
  rw [← toNat_lengthField fits]
  exact fun same => changed (BitVec.eq_of_toNat_eq same)

/-- No flip is accepted under `reject`: in the length field it is one of the two length errors, elsewhere the checksum's. -/
theorem isValid_flipBit_reject (cmd : Word16) {payload : List Byte} {i j : Nat} (fits : payload.length ≤ 65535)
    (hi : i < 5 + payload.length) (hj : j < 8) :
    isValid (parseBody .reject (flipBit (frameBody cmd payload) i j)) = false := by
  by_cases place : i = 2 ∨ i = 3
  · obtain ⟨changed, longer, shorter⟩ := parseBody_flipBit_lengthField cmd fits place hj
    rcases Nat.lt_or_gt_of_ne changed with less | more
    · rw [shorter less]
      rfl
    · rw [longer more .reject]
      rfl
  · obtain ⟨cmd', n, chk, computed, error, -⟩ := parseBody_flipBit_chkErr .reject cmd fits hi hj (by omega)
    rw [error]
    rfl

/-- Settles O21: by the field the flip is in; V-D12 is a flip of the length to 0. -/
theorem tamperedBodyRejected : Obligations.TamperedBodyRejected := by
  refine ⟨fun cmd payload i j fits hi hj => ?_, ?_⟩
  · simp only [frameDecode_escape]
    refine ⟨fun place policy => parseBody_flipBit_chkErr policy cmd fits hi hj place,
      fun place => ?_, fun place => ?_, isValid_flipBit_reject cmd fits hi hj⟩
    · obtain ⟨-, longer, -⟩ := parseBody_flipBit_lengthField cmd fits place hj
      exact longer
    · obtain ⟨-, -, shorter⟩ := parseBody_flipBit_lengthField cmd fits place hj
      exact shorter
  · rw [frameDecode_escape]
    rfl

/-! ## ENC and DEC -/

/-- The count and the bytes of a word are read as they were spelled (30_encoding.md R80, R81). -/
theorem counted_countBytes (mk : List Byte → Instr) {bytes : List Byte} (h : bytes.length ≤ 65535) :
    counted mk (countBytes bytes ++ bytes) = .ok (mk bytes) := by
  have count : bytes.length = (u16 ((lengthField bytes).extractLsb' 8 8) ((lengthField bytes).extractLsb' 0 8)).toNat := by
    rw [u16_be16, toNat_lengthField h]
  exact if_pos count

theorem decodeCommand_encode_enc (cmd : Word16) {payload : List Byte} (h : payload.length ≤ 65535) :
    decodeCommand (encode (.enc cmd payload)) = .ok (.enc cmd payload) := by
  change counted (.enc (u16 (cmd.extractLsb' 8 8) (cmd.extractLsb' 0 8))) (countBytes payload ++ payload) = _
  rw [counted_countBytes _ h, u16_be16]

theorem decodeCommand_encode_dec {span : List Byte} (h : span.length ≤ 65535) :
    decodeCommand (encode (.dec span)) = .ok (.dec span) :=
  counted_countBytes .dec h

theorem exec_enc_opened {s : State} (h : s.conn = .opened) (cmd : Word16) (payload : List Byte) :
    exec (.enc cmd payload) s = .next (txWrite (frameEncode cmd payload) s) := if_pos h

theorem exec_enc_unavailable {s : State} (h : s.conn ≠ .opened) (cmd : Word16) (payload : List Byte) :
    exec (.enc cmd payload) s = .next (raise (.transportUnavailable cmd (lengthField payload)) s) := if_neg h

/-- Settles O22: the word by its count, the two effects by the connection. -/
theorem encResult : Obligations.EncResult := by
  refine ⟨fun cmd payload => decodeCommand_encode_enc cmd,
    fun cmd payload s => ⟨fun opened => exec_enc_opened opened cmd payload, fun unavailable => ?_⟩⟩
  have notOpened : s.conn ≠ .opened := by rcases unavailable with h | h <;> simp [h]
  exact exec_enc_unavailable notOpened cmd payload

/-- DEC delivers what `Decode` returns, and does nothing else (R111). -/
theorem exec_dec (span : List Byte) (s : State) :
    exec (.dec span) s = .next (deliver (frameDecode s.cfg.surplus span) s) := rfl

/-- Settles O23: the event is that of `Deliver`, which has one for each form of a result. -/
theorem decResult : Obligations.DecResult := by
  refine ⟨fun span => decodeCommand_encode_dec, fun span s => ⟨deliverEvent (frameDecode s.cfg.surplus span),
    exec_dec span s, ?ok, ?chkErr, ?truncHeader, ?truncPayload, ?overlong⟩⟩
  case ok => exact fun _ _ _ _ result => congrArg deliverEvent result
  case chkErr => exact fun _ _ _ _ result => congrArg deliverEvent result
  case truncHeader => exact fun _ result => congrArg deliverEvent result
  case truncPayload => exact fun _ _ _ result => congrArg deliverEvent result
  case overlong => exact fun _ _ _ result => congrArg deliverEvent result

end Sys2Proof.Machine
end


section
/-! SUPPORT. The stream reassembler (41_reassembler.md): what RXC does byte by byte and in chunks, where the buffer has room
and where it overflows, the source's chunk-level procedure, and reception before and after BIND. -/

namespace Sys2Proof.Machine

/-! ## RXC as a chunk of bytes -/

/-- RXC receives the bytes of its chunk, and always completes (R130). -/
theorem exec_rxc (chunk : List Byte) (s : State) : exec (.rxc chunk) s = .next (receive chunk s) := rfl

theorem exec_rxc_cons {s : State} (h : s.conn ≠ .closed) (b : Byte) (rest : List Byte) :
    exec (.rxc (b :: rest)) s = exec (.rxc rest) (pushByte b s) := by
  rw [exec_rxc, exec_rxc, receive_cons h]

/-- A byte that overflows the buffer is the last that is received: the rest of the chunk is discarded (R133). -/
theorem receive_overflow {s : State} {b : Byte} (h : s.conn ≠ .closed) (hb : b ≠ endMarker)
    (full : s.rxbuf.length = s.cfg.bufCap) (rest : List Byte) :
    receive (b :: rest) s =
      { s with rxbuf := [], conn := .closed, ev := s.ev ++ [.err (.framingOverflow s.cfg.bufCap)] } := by
  rw [receive_cons h, pushByte_full hb full, receive_closed rfl]

/-- Settles O25: each clause is one case of `PushByte`. -/
theorem rxcByByte : Obligations.RxcByByte := by
  refine fun s => ⟨rfl, fun closed chunk => ?_, fun h rest => ⟨fun noise span hr hspan => ?_, fun noise => ?_,
    fun b hb full => ?_, fun b hb room => ?_⟩⟩
  · rw [exec_rxc, receive_closed closed]
  · exact (exec_rxc_cons h _ rest).trans (congrArg (exec (.rxc rest)) (pushByte_end_some hr hspan))
  · exact (exec_rxc_cons h _ rest).trans (congrArg (exec (.rxc rest)) (pushByte_end_none noise))
  · exact congrArg Host.Outcome.next (receive_overflow h hb full rest)
  · rw [exec_rxc_cons h, pushByte_fits hb room.ne]

theorem execAll_map_rxc (chunks : List (List Byte)) (s : State) :
    execAll (chunks.map .rxc) s = .next (receive chunks.flatten s) := by
  induction chunks generalizing s with
  | nil => rfl
  | cons chunk chunks ih =>
    rw [List.flatten_cons, receive_append]
    exact ih (receive chunk s)

/-- Settles O27: by induction on the chunks; a chunk may be cut anywhere. -/
theorem fragmentationInvariance : Obligations.FragmentationInvariance := execAll_map_rxc

/-! ## Room in the buffer -/

/-- Bytes that hold no end marker and fit are stored as they are (R134). -/
theorem receive_fits {stream : List Byte} {s : State} (h : s.conn ≠ .closed) (noEnd : endMarker ∉ stream)
    (room : s.rxbuf.length + stream.length ≤ s.cfg.bufCap) :
    receive stream s = { s with rxbuf := s.rxbuf ++ stream } := by
  induction stream generalizing s with
  | nil => rw [receive_nil, List.append_nil]
  | cons b stream ih =>
    obtain ⟨hb, noEnd⟩ := List.ne_and_not_mem_of_not_mem_cons noEnd
    rw [List.length_cons] at room
    have roomAfter : (s.rxbuf ++ [b]).length + stream.length ≤ s.cfg.bufCap := by
      rw [List.length_append, List.length_singleton]
      omega
    rw [receive_cons h, pushByte_fits hb.symm (by omega), ih (s := { s with rxbuf := s.rxbuf ++ [b] }) h noEnd roomAfter,
      List.append_assoc, List.singleton_append]

/-- Settles O30: the stream is stored, and the byte after it finds the buffer full. -/
theorem unterminatedStreamOverflows : Obligations.UnterminatedStreamOverflows := by
  refine fun stream rest b s h noEnd hb => ⟨fun room => ?_, fun full => ?_⟩
  · rw [exec_rxc, receive_fits h noEnd room]
  · rw [exec_rxc, receive_append, receive_fits h noEnd full.le]
    exact congrArg Host.Outcome.next
      (receive_overflow (s := { s with rxbuf := s.rxbuf ++ stream }) h hb (List.length_append.trans full) rest)

/-- What stands between the markers of a frame decodes to the frame (40_codec.md R114). -/
theorem frameDecode_escape_frameBody (policy : SurplusPolicy) (cmd : Word16) {payload : List Byte}
    (fits : payload.length ≤ 65535) :
    frameDecode policy (escape (frameBody cmd payload)) =
      .ok cmd (lengthField payload) (checksum cmd (lengthField payload) payload) payload := by
  rw [← span_frameEncode]
  exact frameRoundTrip cmd payload policy fits

/-- Settles O29: all of the frame but its end marker is stored behind what the buffer holds; the end marker then cuts at the
frame's own start marker, the last one. -/
theorem resynchronisation : Obligations.Resynchronisation := by
  intro cmd payload chunks s fits split h _ room
  have frame : frameEncode cmd payload = (startMarker :: escape (frameBody cmd payload)) ++ [endMarker] := rfl
  have noEnd : endMarker ∉ startMarker :: escape (frameBody cmd payload) :=
    List.not_mem_cons_of_ne_of_not_mem (by decide) (endMarker_notMem_escape _)
  rw [frame, List.length_append, List.length_singleton] at room
  rw [execAll_map_rxc, split, frame, receive_append, receive_fits h noEnd (by omega), receive_cons ?isOpen,
    pushByte_end_some rfl (startMarker_notMem_escape _), receive_nil, frameDecode_escape_frameBody _ cmd fits]
  · rfl
  · exact h

/-! ## The chunk-level procedure -/

theorem cutFirstEnd_none {l : List Byte} (h : endMarker ∉ l) : cutFirstEnd l = none := by
  induction l with
  | nil => rfl
  | cons b l ih =>
    obtain ⟨hb, noEnd⟩ := List.ne_and_not_mem_of_not_mem_cons h
    rw [cutFirstEnd, if_neg hb.symm, ih noEnd, Option.map_none]

theorem cutFirstEnd_some {before : List Byte} (h : endMarker ∉ before) (rest : List Byte) :
    cutFirstEnd (before ++ endMarker :: rest) = some (before, rest) := by
  induction before with
  | nil => rfl
  | cons b before ih =>
    obtain ⟨hb, noEnd⟩ := List.ne_and_not_mem_of_not_mem_cons h
    rw [List.cons_append, cutFirstEnd, if_neg hb.symm, ih noEnd, Option.map_some]

section Cutting

variable (policy : SurplusPolicy)

theorem cutLoop_noEnd {buf : List Byte} (h : endMarker ∉ buf) (fuel : Nat) : cutLoop policy fuel buf = ([], buf) := by
  cases fuel with
  | zero => rfl
  | succ fuel => rw [cutLoop, cutFirstEnd_none h]

theorem cutLoop_end {before : List Byte} (h : endMarker ∉ before) (rest : List Byte) (fuel : Nat) :
    cutLoop policy (fuel + 1) (before ++ endMarker :: rest) =
      (((afterLastStart before).map (frameDecode policy)).toList ++ (cutLoop policy fuel rest).1,
        (cutLoop policy fuel rest).2) := by
  rw [cutLoop, cutFirstEnd_some h]

/-- More cuts than there are bytes make no difference: the loop has ended before. -/
theorem cutLoop_fuel {fuel fuel' : Nat} {buf : List Byte} (enough : buf.length ≤ fuel) (enough' : buf.length ≤ fuel') :
    cutLoop policy fuel buf = cutLoop policy fuel' buf := by
  induction fuel generalizing fuel' buf with
  | zero =>
    obtain rfl := List.length_eq_zero_iff.mp (Nat.le_zero.mp enough)
    rw [cutLoop_noEnd policy List.not_mem_nil, cutLoop_noEnd policy List.not_mem_nil]
  | succ fuel ih =>
    by_cases hend : endMarker ∈ buf
    · obtain ⟨before, rest, rfl, noEnd⟩ := List.eq_append_cons_of_mem hend
      rw [List.length_append, List.length_cons] at enough enough'
      obtain ⟨fuel', rfl⟩ : ∃ n, fuel' = n + 1 := ⟨fuel' - 1, by omega⟩
      rw [cutLoop_end policy noEnd, cutLoop_end policy noEnd, ih (fuel' := fuel') (by omega) (by omega)]
    · rw [cutLoop_noEnd policy hend, cutLoop_noEnd policy hend]

theorem chunkLevel_nil {buf : List Byte} (h : endMarker ∉ buf) : chunkLevel policy buf [] = ([], buf) := by
  rw [chunkLevel, List.append_nil, cutLoop_noEnd policy h]

/-- A byte at the head of the chunk may as well stand at the end of the buffer. -/
theorem chunkLevel_cons (buf : List Byte) (b : Byte) (rest : List Byte) :
    chunkLevel policy buf (b :: rest) = chunkLevel policy (buf ++ [b]) rest := by
  rw [chunkLevel, chunkLevel, List.append_assoc, List.singleton_append]

theorem chunkLevel_end {buf : List Byte} (h : endMarker ∉ buf) (rest : List Byte) :
    chunkLevel policy buf (endMarker :: rest) =
      (((afterLastStart buf).map (frameDecode policy)).toList ++ (chunkLevel policy [] rest).1,
        (chunkLevel policy [] rest).2) := by
  have fuel : (buf ++ endMarker :: rest).length = (buf.length + rest.length) + 1 := by
    rw [List.length_append, List.length_cons, Nat.add_assoc]
  rw [chunkLevel, fuel, cutLoop_end policy h, chunkLevel, List.nil_append,
    cutLoop_fuel policy (Nat.le_add_left rest.length buf.length) le_rfl]

end Cutting

/-- What an end marker emits, with and without a start marker in the buffer, in the form of the chunk-level procedure. -/
theorem pushByte_end (s : State) : pushByte endMarker s =
    { s with
      rxbuf := []
      ev := s.ev ++ ((afterLastStart s.rxbuf).map (frameDecode s.cfg.surplus)).toList.map deliverEvent } := by
  rw [pushByte, if_pos rfl, endOfFrame]
  cases afterLastStart s.rxbuf with
  | none => simp [bufClear]
  | some span => rfl

/-- Settles O28: by induction on the chunk; an end marker makes one cut, any other byte moves into the buffer. -/
theorem rxcIsChunkLevel : Obligations.RxcIsChunkLevel := by
  intro chunk s h noEnd room
  rw [exec_rxc]
  induction chunk generalizing s with
  | nil => rw [chunkLevel_nil _ noEnd, receive_nil, List.map_nil, List.append_nil]
  | cons b rest ih =>
    rw [List.length_cons] at room
    rw [receive_cons h]
    by_cases hb : b = endMarker
    · have roomAfter : ([] : List Byte).length + rest.length ≤ s.cfg.bufCap := by
        rw [List.length_nil]
        omega
      rw [hb, pushByte_end, chunkLevel_end _ noEnd, List.map_append, ← List.append_assoc]
      exact ih _ h List.not_mem_nil roomAfter
    · have noEndAfter : endMarker ∉ s.rxbuf ++ [b] :=
        List.not_mem_append noEnd (fun m => hb (List.mem_singleton.mp m).symm)
      have roomAfter : (s.rxbuf ++ [b]).length + rest.length ≤ s.cfg.bufCap := by
        rw [List.length_append, List.length_singleton]
        omega
      rw [pushByte_fits hb (by omega), chunkLevel_cons]
      exact ih { s with rxbuf := s.rxbuf ++ [b] } h noEndAfter roomAfter

/-! ## Reception and BIND -/

/-- The state as BIND leaves it (42_connection.md R150, R151): open where it was unbound. -/
def afterBind (s : State) : State := { s with conn := if s.conn = .unbound then .opened else s.conn }

/-- `afterBind` is the meaning of BIND in all three connection states. -/
theorem exec_bind (s : State) : exec .bind s = .next (afterBind s) := by
  obtain ⟨cfg, conn, rxbuf, txstream, ev, sw, refused, refusedWhy, pending, turn⟩ := s
  cases conn <;> rfl

theorem afterBind_unbound {s : State} (h : s.conn = .unbound) : afterBind s = { s with conn := .opened } := by
  rw [afterBind, if_pos h]

theorem afterBind_closed {s : State} (h : s.conn = .closed) : afterBind s = s := by
  rw [afterBind, h, if_neg (by decide), ← h]

theorem afterBind_conn_ne_closed {s : State} (h : s.conn ≠ .closed) : (afterBind s).conn ≠ .closed := by
  rw [afterBind]
  split
  · exact Conn.noConfusion
  · exact h

/-- No byte is taken otherwise for a connection that is open: `PushByte` does not read `CONN`, and an overflow closes either
way. -/
theorem pushByte_afterBind (b : Byte) (s : State) : pushByte b (afterBind s) = afterBind (pushByte b s) := by
  by_cases hb : b = endMarker
  · rw [hb, pushByte_end, pushByte_end]
    rfl
  · by_cases full : s.rxbuf.length = s.cfg.bufCap
    · exact (pushByte_full (s := afterBind s) hb full).trans (congrArg afterBind (pushByte_full hb full)).symm
    · exact (pushByte_fits (s := afterBind s) hb full).trans (congrArg afterBind (pushByte_fits hb full)).symm

theorem receive_afterBind (l : List Byte) (s : State) : receive l (afterBind s) = afterBind (receive l s) := by
  induction l generalizing s with
  | nil => rfl
  | cons b l ih =>
    by_cases h : s.conn = .closed
    · rw [receive_closed h, afterBind_closed h, receive_closed h]
    · rw [receive_cons h, receive_cons (afterBind_conn_ne_closed h), pushByte_afterBind, ih]

/-- Settles O31: an opened connection is what BIND makes of an unbound one, and reception commutes with that. -/
theorem receptionIgnoresBinding : Obligations.ReceptionIgnoresBinding := by
  intro chunk s t unbound received
  obtain rfl : receive chunk s = t := Host.Outcome.next.inj received
  rw [exec_rxc, ← afterBind_unbound unbound, receive_afterBind]
  rfl

end Sys2Proof.Machine
end


section
/-! SUPPORT. The connection operations (42_connection.md): BIND in its three states, CLOSE in every state. -/

namespace Sys2Proof.Machine

/-! ## BIND -/

/-- BIND has no effect once the connection has left its first state (R151). -/
theorem afterBind_of_ne_unbound {s : State} (h : s.conn ≠ .unbound) : afterBind s = s := by
  rw [afterBind, if_neg h]

/-- Settles O35: `afterBind` is the meaning of BIND, and it opens an unbound connection only. -/
theorem bindResult : Obligations.BindResult := by
  refine ⟨rfl, fun s => ⟨fun unbound => ?_, fun bound => ?_⟩⟩
  · rw [exec_bind, afterBind_unbound unbound]
  · have notUnbound : s.conn ≠ .unbound := by rcases bound with h | h <;> rw [h] <;> decide
    rw [exec_bind, afterBind_of_ne_unbound notUnbound]

/-! ## CLOSE -/

/-- CLOSE does not read the state: it has one meaning in all three connection states (R152). -/
theorem exec_close (s : State) : exec .close s = .next { s with conn := .closed, rxbuf := [] } := rfl

/-- Settles O36: where both fields already hold what CLOSE writes, the state it leaves is the state itself. -/
theorem closeResult : Obligations.CloseResult := by
  refine ⟨rfl, fun s => ⟨exec_close s, fun closed empty => ?_⟩⟩
  rw [exec_close, ← closed, ← empty]

end Sys2Proof.Machine
end


section
/-! SUPPORT. The switch state machine (43_switch_fsm.md): what PEV, TON, TOFF, TICK and TEXP make of the state, runs of them
in a row, and two parts of the state that they do not read: `CONN` and the tracked values. -/

namespace Sys2Proof.Machine

/-- The registers of a switch with `ON[k]` written, as `Assign` leaves them (R170, `assign_eq`). -/
def setOn (v : Bool) (w : Switch) : Switch := { w with on := v }

section SwitchOps

variable {k : Byte} {s : State} {w : Switch}

/-! ## TON, TOFF and TEXP -/

theorem exec_ton (hw : s.sw[k.toNat]? = some w) :
    exec (.ton k) s = .next (afterAssign k w.on (setOn true (disarm w)) s) :=
  (withSwitch_some hw _).trans (congrArg Host.Outcome.next (assign_eq k true (disarm w) s))

theorem exec_toff (hw : s.sw[k.toNat]? = some w) :
    exec (.toff k) s = .next (afterAssign k w.on (offSwitch w) s) :=
  (withSwitch_some hw _).trans (congrArg Host.Outcome.next (turnOff_eq k w s))

/-- An enabled TEXP turns the switch off as TOFF does (R168). -/
theorem exec_texp_enabled (hw : s.sw[k.toNat]? = some w) (enabled : texpEnabled w = true) :
    exec (.texp k) s = exec (.toff k) s :=
  ((withSwitch_some hw _).trans (if_pos enabled)).trans (withSwitch_some hw _).symm

theorem exec_texp_notEnabled (hw : s.sw[k.toNat]? = some w) (notEnabled : ¬texpEnabled w = true) :
    exec (.texp k) s = .next (afterRefusal .texpNotEnabled s) :=
  (withSwitch_some hw _).trans (if_neg notEnabled)

/-! ## PEV -/

theorem exec_pev_unwatched (hw : s.sw[k.toNat]? = some w) {prop : Byte} (other : prop ≠ w.watchedProp) (val : Byte) :
    exec (.pev k prop val) s = .next s :=
  (withSwitch_some hw _).trans (if_neg other)

theorem exec_pev_watched (hw : s.sw[k.toNat]? = some w) (val : Byte) :
    exec (.pev k w.watchedProp val) s = watchedEvent k val (track val w) s :=
  (withSwitch_some hw _).trans (if_pos rfl)

variable {val : Byte}

/-- A direct switch follows the activation of the value (R163). -/
theorem exec_pev_direct (hw : s.sw[k.toNat]? = some w) (mode : w.mode = .direct) {v : Bool}
    (act : active s.cfg w val = v) :
    exec (.pev k w.watchedProp val) s = .next (afterAssign k w.on (setOn v (track val w)) s) := by
  subst act
  rw [exec_pev_watched hw, watchedEvent, track_mode, mode, assign_eq]
  rfl

/-- An activating value flips a toggle switch (R164). -/
theorem exec_pev_toggle (hw : s.sw[k.toNat]? = some w) (mode : w.mode = .toggle) (act : Activating s.cfg w val) :
    exec (.pev k w.watchedProp val) s = .next (afterAssign k w.on (setOn (!w.on) (track val w)) s) := by
  rw [exec_pev_watched hw, watchedEvent, track_mode, mode]
  exact (if_pos ((active_iff s.cfg w val).mpr act)).trans (congrArg Host.Outcome.next (assign_eq ..))

/-- An activating value turns a momentary switch on and arms its timer with the full delay (R165). -/
theorem exec_pev_momentary (hw : s.sw[k.toNat]? = some w) (mode : w.mode = .momentary) (act : Activating s.cfg w val) :
    exec (.pev k w.watchedProp val) s = .next (afterAssign k w.on (setOn true (arm (track val w))) s) := by
  rw [exec_pev_watched hw, watchedEvent, track_mode, mode]
  exact (if_pos ((active_iff s.cfg w val).mpr act)).trans (congrArg Host.Outcome.next (assign_eq ..))

/-- A value that does not activate a toggle or momentary switch is only tracked (R164, R165). -/
theorem exec_pev_notActivating (hw : s.sw[k.toNat]? = some w) (mode : w.mode = .toggle ∨ w.mode = .momentary)
    (act : ¬Activating s.cfg w val) : exec (.pev k w.watchedProp val) s = .next (putSwitch k (track val w) s) := by
  have inactive := mt (active_iff s.cfg w val).mp act
  rcases mode with mode | mode <;>
  · rw [exec_pev_watched hw, watchedEvent, track_mode, mode]
    exact if_neg inactive

/-! ## TICK -/

theorem exec_tick (s : State) : exec .tick s = .next { s with sw := s.sw.map countDown } := rfl

/-- A switch after n time units: an armed timer reads its time less n, or 0 (R169). `execAll_ticks` ties it to TICK. -/
def elapse (n : Nat) (w : Switch) : Switch :=
  { w with tmrRemain := if w.tmrArmed then BitVec.ofNat 16 (w.tmrRemain.toNat - n) else w.tmrRemain }

theorem elapse_armed (h : w.tmrArmed = true) (n : Nat) :
    elapse n w = { w with tmrRemain := BitVec.ofNat 16 (w.tmrRemain.toNat - n) } := by
  rw [elapse, if_pos h]

theorem elapse_unarmed (h : ¬w.tmrArmed = true) (n : Nat) : elapse n w = w := by
  rw [elapse, if_neg h]

/-- The remaining time only goes down, so it still fits its 16 bits. -/
theorem toNat_tmrRemain_elapse (h : w.tmrArmed = true) (n : Nat) :
    (elapse n w).tmrRemain.toNat = w.tmrRemain.toNat - n := by
  rw [elapse_armed h, BitVec.toNat_ofNat]
  exact Nat.mod_eq_of_lt ((Nat.sub_le _ n).trans_lt w.tmrRemain.isLt)

theorem elapse_zero (w : Switch) : elapse 0 w = w := by
  by_cases h : w.tmrArmed = true
  · rw [elapse_armed h, Nat.sub_zero, BitVec.ofNat_toNat, BitVec.setWidth_eq]
  · exact elapse_unarmed h 0

theorem elapse_elapse (m n : Nat) (w : Switch) : elapse n (elapse m w) = elapse (m + n) w := by
  by_cases h : w.tmrArmed = true
  · rw [elapse_armed (w := elapse m w) h, toNat_tmrRemain_elapse h, Nat.sub_sub, elapse_armed h (m + n)]
    rfl
  · rw [elapse_unarmed h, elapse_unarmed h, elapse_unarmed h]

/-- The registers as one TICK leaves them, with the time as a number: 0 stays 0, and nothing wraps. -/
theorem countDown_eq (w : Switch) : countDown w =
    if w.tmrArmed = true ∧ 0 < w.tmrRemain.toNat then
      { w with tmrRemain := BitVec.ofNat 16 (w.tmrRemain.toNat - 1) } else w := by
  have left_iff : 0 < w.tmrRemain ↔ 0 < w.tmrRemain.toNat := BitVec.lt_def
  simp only [countDown, Bool.and_eq_true, decide_eq_true_eq, left_iff]
  split
  · have down : w.tmrRemain - 1 = BitVec.ofNat 16 (w.tmrRemain.toNat - 1) := by bv_omega
    rw [down]
  · rfl

theorem countDown_eq_elapse (w : Switch) : countDown w = elapse 1 w := by
  rw [countDown_eq]
  by_cases armed : w.tmrArmed = true
  · by_cases left : 0 < w.tmrRemain.toNat
    · rw [if_pos ⟨armed, left⟩, elapse_armed armed]
    · have still : BitVec.ofNat 16 (w.tmrRemain.toNat - 1) = w.tmrRemain := by bv_omega
      rw [if_neg (fun h => left h.2), elapse_armed armed, still]
  · rw [if_neg (fun h => armed h.1), elapse_unarmed armed]

/-- TEXP of an armed timer is enabled once as many time units are over as were left (R168, R169). -/
theorem texpEnabled_elapse_iff (armed : w.tmrArmed = true) (n : Nat) :
    texpEnabled (elapse n w) = true ↔ w.tmrRemain.toNat ≤ n := by
  rw [texpEnabled_iff, ← Nat.sub_eq_zero_iff_le, ← toNat_tmrRemain_elapse armed n]
  exact ⟨fun ⟨_, zero⟩ => congrArg BitVec.toNat zero, fun zero => ⟨armed, BitVec.eq_of_toNat_eq zero⟩⟩

/-! ## Operations in a row -/

theorem execAll_cons {i : Instr} {t : State} (h : exec i s = .next t) (rest : List Instr) :
    execAll (i :: rest) s = execAll rest t := by
  rw [execAll, h]

theorem execAll_append {l : List Instr} {t : State} (h : execAll l s = .next t) (rest : List Instr) :
    execAll (l ++ rest) s = execAll rest t := by
  induction l generalizing s with
  | nil => cases h; rfl
  | cons i l ih =>
    rw [execAll] at h
    split at h
    case h_1 next => rw [List.cons_append, execAll_cons next, ih h]
    case h_2 => cases h
    case h_3 => cases h

theorem execAll_ticks (n : Nat) (s : State) :
    execAll (List.replicate n .tick) s = .next { s with sw := s.sw.map (elapse n) } := by
  induction n generalizing s with
  | zero => simp [execAll, funext elapse_zero]
  | succ n ih =>
    rw [List.replicate_succ, execAll_cons (exec_tick s), ih]
    have sum : elapse n ∘ countDown = elapse (n + 1) := by
      funext w
      rw [Function.comp_apply, countDown_eq_elapse, elapse_elapse, Nat.add_comm]
    rw [List.map_map, sum]

theorem getElem?_map_elapse (hw : s.sw[k.toNat]? = some w) (n : Nat) :
    (s.sw.map (elapse n))[k.toNat]? = some (elapse n w) := by
  rw [List.getElem?_map, hw, Option.map_some]

/-- An operation on switch k that assigns `ON[k]` leaves the registers that it is given. -/
theorem getElem?_afterAssign (hw : s.sw[k.toNat]? = some w) (old : Bool) (w' : Switch) :
    (afterAssign k old w' s).sw[k.toNat]? = some w' :=
  List.getElem?_set_self (List.getElem?_eq_some_iff.mp hw).1

/-- A change is always notified, with and without `RENOTIFY` (R170). -/
theorem afterAssign_of_ne {old : Bool} (h : old ≠ w.on) (k : Byte) (s : State) : afterAssign k old w s =
    { s with sw := s.sw.set k.toNat w, ev := s.ev ++ [.notify k w.on] } := by
  rw [afterAssign, if_pos (.inr h)]

/-- Two changes of one switch in a row: the registers of the second stay, and both are notified. -/
theorem afterAssign_afterAssign_of_ne {w' : Switch} {old old' : Bool} (h : old ≠ w.on) (h' : old' ≠ w'.on) (k : Byte)
    (s : State) : afterAssign k old' w' (afterAssign k old w s) =
      { s with sw := s.sw.set k.toNat w', ev := s.ev ++ [.notify k w.on, .notify k w'.on] } := by
  rw [afterAssign_of_ne h', afterAssign_of_ne h, List.set_set, List.append_assoc]
  rfl

/-- An activation of a momentary switch and n TICKs: the switch is on, and n time units of its delay are over. -/
theorem execAll_activation_ticks (hw : s.sw[k.toNat]? = some w) (mode : w.mode = .momentary)
    (act : Activating s.cfg w val) (n : Nat) :
    ∃ t, execAll (.pev k w.watchedProp val :: List.replicate n .tick) s = .next t ∧
      t.sw[k.toNat]? = some (elapse n (setOn true (arm (track val w)))) ∧ t.refused = s.refused ∧
      t.ev = s.ev ++ if s.cfg.renotify = true ∨ w.on = false then [.notify k true] else [] := by
  refine ⟨_, (execAll_cons (exec_pev_momentary hw mode act) _).trans (execAll_ticks n _),
    getElem?_map_elapse (getElem?_afterAssign hw _ _) n, rfl, ?_⟩
  simp only [← Bool.not_eq_true]
  rfl

/-- An explicit command leaves no revert pending (R166, R167). -/
theorem exec_explicit_disarms {i : Instr} (hw : s.sw[k.toNat]? = some w) (hi : i = .ton k ∨ i = .toff k) :
    ∃ t w', exec i s = .next t ∧ t.sw[k.toNat]? = some w' ∧ ¬w'.tmrArmed = true := by
  rcases hi with rfl | rfl
  · exact ⟨_, _, exec_ton hw, getElem?_afterAssign hw _ _, Bool.false_ne_true⟩
  · exact ⟨_, _, exec_toff hw, getElem?_afterAssign hw _ _, Bool.false_ne_true⟩

end SwitchOps

/-! ## The results of the operations -/

/-- Settles O41: a word's operands are read as they stand; each mode has one lemma for the values that act on it. -/
theorem pevResult : Obligations.PevResult := by
  refine ⟨fun _ _ _ => rfl, fun k prop val s missing => withSwitch_none missing _, fun k prop val w s hw => ?_⟩
  refine ⟨fun other => exec_pev_unwatched hw other val, ?direct, ?directOff, ?toggle, ?momentary, ?ignored⟩
  all_goals rintro rfl mode act
  case direct => exact exec_pev_direct hw mode ((active_iff ..).mpr act)
  case directOff => exact exec_pev_direct hw mode (Bool.eq_false_iff.mpr (mt (active_iff ..).mp act))
  case toggle => exact exec_pev_toggle hw mode act
  case momentary => exact exec_pev_momentary hw mode act
  case ignored => exact exec_pev_notActivating hw mode act

/-- Settles O42: TON is one assignment on the disarmed registers. -/
theorem tonResult : Obligations.TonResult :=
  fun _ _ => ⟨rfl, fun _ hw => exec_ton hw, fun missing => withSwitch_none missing _⟩

/-- Settles O43: TOFF is `TurnOff`. -/
theorem toffResult : Obligations.ToffResult :=
  fun _ _ => ⟨rfl, fun _ hw => exec_toff hw, fun missing => withSwitch_none missing _⟩

/-- Settles O44: by whether the timer is armed with no time left, which is what enables TEXP. -/
theorem texpResult : Obligations.TexpResult := by
  refine fun k s => ⟨rfl, fun w hw armed zero => ?_, fun w hw waits => ?_, fun missing => withSwitch_none missing _⟩
  · have same := exec_texp_enabled hw ((texpEnabled_iff w).mpr ⟨armed, zero⟩)
    exact ⟨same.trans (exec_toff hw), same⟩
  · refine exec_texp_notEnabled hw fun enabled => ?_
    obtain ⟨armed, zero⟩ := (texpEnabled_iff w).mp enabled
    simp [armed, zero] at waits

/-- Settles O46: TICK counts every switch down. -/
theorem tickResult : Obligations.TickResult :=
  ⟨rfl, fun s => by rw [exec_tick, funext countDown_eq]⟩

/-! ## Runs of operations -/

/-- Settles O45: n TICKs let n time units elapse for every switch. -/
theorem ticksCountDown : Obligations.TicksCountDown := by
  refine fun n s => ⟨_, execAll_ticks n s, rfl, List.length_map _, fun k w hw => ⟨elapse n w, ?_, rfl, ?_, ?_⟩⟩
  · rw [List.getElem?_map, hw, Option.map_some]
  · exact fun armed => toNat_tmrRemain_elapse armed n
  · exact fun unarmed => congrArg Switch.tmrRemain (elapse_unarmed (Bool.eq_false_iff.mp unarmed) n)

/-- Settles O47: the second flip reads the registers that the first one left, and each is a change. -/
theorem toggleFlipsTwice : Obligations.ToggleFlipsTwice := by
  intro k val w s hw mode act
  have first := exec_pev_toggle hw mode act
  have second := exec_pev_toggle (getElem?_afterAssign hw w.on (setOn (!w.on) (track val w))) mode act
  have changes (b : Bool) : b ≠ !b := (Bool.not_ne_self b).symm
  rw [afterAssign_afterAssign_of_ne (changes _) (changes _)] at second
  refine (execAll_cons first _).trans ((execAll_cons second []).trans ?_)
  simp only [setOn, Bool.not_not]
  rfl

/-- Settles O48: after n TICKs the timer reads the delay less n, so TEXP is enabled exactly from n = delay on. -/
theorem momentaryReverts : Obligations.MomentaryReverts := by
  intro k val w n s hw mode act
  obtain ⟨t, run, hwt, refused, ev⟩ := execAll_activation_ticks hw mode act n
  have enabled_iff := texpEnabled_elapse_iff (w := setOn true (arm (track val w))) rfl n
  have texp {u : State} (h : exec (.texp k) t = .next u) :
      execAll (.pev k w.watchedProp val :: (List.replicate n .tick ++ [.texp k])) s = .next u :=
    (execAll_append run _).trans (execAll_cons h [])
  by_cases due : w.revertDelay.toNat ≤ n
  · have off := (exec_texp_enabled hwt (enabled_iff.mpr due)).trans (exec_toff hwt)
    rw [afterAssign_of_ne Bool.noConfusion] at off
    refine ⟨_, texp off, fun _ => ⟨?_, refused, ?_⟩, fun early => absurd due early.not_ge⟩
    · exact List.getElem?_set_self (List.getElem?_eq_some_iff.mp hwt).1
    · exact congrArg (· ++ _) ev
  · have waits := exec_texp_notEnabled hwt (mt enabled_iff.mp due)
    refine ⟨_, texp waits, fun late => absurd late due, fun _ => ⟨rfl, rfl, ?_, ev⟩⟩
    have left : BitVec.ofNat 16 (w.revertDelay.toNat - n) = w.revertDelay - BitVec.ofNat 16 n := by bv_omega
    rw [← left]
    exact hwt

/-- Settles O49: the command disarms the timer, TICKs do not arm it, and a TEXP of an unarmed timer is not enabled. -/
theorem supersededRevertNeverFires : Obligations.SupersededRevertNeverFires := by
  intro k w n i s t u hw hi run fires
  obtain ⟨s', w', command, hw', unarmed⟩ := exec_explicit_disarms hw hi
  rw [execAll_cons command, execAll_ticks] at run
  obtain rfl := Host.Outcome.next.inj run
  have hwt := getElem?_map_elapse hw' n
  rw [elapse_unarmed unarmed] at hwt
  have waits : ¬texpEnabled w' = true := fun enabled => unarmed ((texpEnabled_iff w').mp enabled).1
  exact Host.Outcome.next.inj (fires.symm.trans (exec_texp_notEnabled hwt waits))

/-! ## What the operations do not read -/

/-- The outcome with `f` applied to its next state. -/
def mapNext (f : State → State) : Host.Outcome State Fault Refusal → Host.Outcome State Fault Refusal
  | .next s => .next (f s)
  | .fault r => .fault r
  | .refused r => .refused r

/-! ### `CONN` (R173) -/

section Connection

variable (k : Byte) (c : Conn) (s : State)

theorem assign_setConn (v : Bool) (w : Switch) : assign k v w (setConn c s) = setConn c (assign k v w s) := by
  rw [assign_eq, assign_eq]
  rfl

theorem watchedEvent_setConn (val : Byte) (w : Switch) :
    watchedEvent k val w (setConn c s) = mapNext (setConn c) (watchedEvent k val w s) := by
  unfold watchedEvent
  cases w.mode with
  | direct => exact congrArg Host.Outcome.next (assign_setConn ..)
  | toggle | momentary =>
    dsimp only
    rw [apply_ite (mapNext (setConn c)), setConn_cfg, assign_setConn]
    rfl
  | reserved => rfl

theorem withSwitch_setConn {f g : Switch → Host.Outcome State Fault Refusal}
    (h : ∀ w, f w = mapNext (setConn c) (g w)) :
    withSwitch k (setConn c s) f = mapNext (setConn c) (withSwitch k s g) := by
  rcases withSwitch_cases k s g with ⟨w, hw, e⟩ | ⟨missing, e⟩
  · rw [e, withSwitch_some (s := setConn c s) hw, h]
  · rw [e, withSwitch_none (s := setConn c s) missing]
    rfl

theorem exec_setConn {k prop val : Byte} {i : Instr} (hi : i ∈ [.pev k prop val, .ton k, .toff k, .tick, .texp k]) :
    exec i (setConn c s) = mapNext (setConn c) (exec i s) := by
  simp only [List.mem_cons, List.not_mem_nil, or_false] at hi
  rcases hi with rfl | rfl | rfl | rfl | rfl
  · refine withSwitch_setConn k c s fun w => ?_
    rw [apply_ite (mapNext (setConn c)), watchedEvent_setConn]
    rfl
  · exact withSwitch_setConn k c s fun w => congrArg Host.Outcome.next (assign_setConn ..)
  · exact withSwitch_setConn k c s fun w => congrArg Host.Outcome.next (assign_setConn ..)
  · rfl
  · refine withSwitch_setConn k c s fun w => ?_
    rw [apply_ite (mapNext (setConn c)), turnOff, assign_setConn]
    rfl

end Connection

/-- Settles O51: the operations keep `CONN`, and commute with writing it. -/
theorem switchesIgnoreConnection : Obligations.SwitchesIgnoreConnection := by
  intro k prop val i c s t hi h
  have commutes := exec_setConn c s hi
  rw [h] at commutes
  exact ⟨switchEffect_conn (switchEffect_of_mem hi h), commutes⟩

/-! ### The tracked values (R172) -/

/-- The state with no tracked value in any switch. -/
def forgetTracked (s : State) : State := { s with sw := s.sw.map untrack }

theorem forgetTracked_eq_iff {s t : State} : forgetTracked t = forgetTracked s ↔
    t = { s with sw := t.sw } ∧ t.sw.map untrack = s.sw.map untrack := by
  cases s
  cases t
  simp only [forgetTracked, State.mk.injEq]
  tauto

theorem map_untrack_set {l : List Switch} {k : Nat} {w w' : Switch} (hw : l[k]? = some w) (h : untrack w' = untrack w) :
    (l.set k w').map untrack = l.map untrack := by
  obtain ⟨hk, rfl⟩ := List.getElem?_eq_some_iff.mp hw
  rw [List.map_set, h, ← List.getElem_map untrack (h := by simpa using hk), List.set_getElem_self]

theorem map_untrack_untrack (l : List Switch) : (l.map untrack).map untrack = l.map untrack :=
  List.map_map.trans rfl

theorem forgetTracked_forgetTracked (s : State) : forgetTracked (forgetTracked s) = forgetTracked s :=
  forgetTracked_eq_iff.mpr ⟨rfl, map_untrack_untrack s.sw⟩

/-- What is written to a switch is forgotten with what was there before. -/
theorem forgetTracked_putSwitch {w w' : Switch} (h : untrack w' = untrack w) (k : Byte) (s : State) :
    forgetTracked (putSwitch k w' (forgetTracked s)) = forgetTracked (putSwitch k w s) := by
  have sw : ((s.sw.map untrack).set k.toNat w').map untrack = (s.sw.set k.toNat w).map untrack := by
    rw [List.map_set, List.map_set, h, map_untrack_untrack]
  exact forgetTracked_eq_iff.mpr ⟨rfl, sw⟩

theorem forgetTracked_assign {w w' : Switch} (h : untrack w' = untrack w) (k : Byte) (v : Bool) (s : State) :
    forgetTracked (assign k v w' (forgetTracked s)) = forgetTracked (assign k v w s) := by
  have on : w'.on = w.on := by simpa using congrArg Switch.on h
  have put := forgetTracked_putSwitch (w := setOn v w) (w' := setOn v w') (congrArg (setOn v) h) k s
  unfold assign
  rw [on]
  change forgetTracked (if notifies s.cfg w.on v then _ else _) = _
  split
  · exact congrArg (emit (.notify k v)) put
  · exact put

theorem mapNext_watchedEvent_forgetTracked (k val : Byte) (w : Switch) (s : State) :
    mapNext forgetTracked (watchedEvent k val w (forgetTracked s)) = mapNext forgetTracked (watchedEvent k val w s) := by
  unfold watchedEvent
  cases w.mode with
  | direct => exact congrArg Host.Outcome.next (forgetTracked_assign rfl ..)
  | toggle | momentary =>
    dsimp only
    rw [apply_ite (mapNext forgetTracked), apply_ite (mapNext forgetTracked)]
    exact ite_congr rfl (fun _ => congrArg Host.Outcome.next (forgetTracked_assign rfl ..))
      (fun _ => congrArg Host.Outcome.next (forgetTracked_putSwitch rfl k s))
  | reserved => rfl

/-- An operation on switch k does not read the tracked value when what it does with the registers does not. -/
theorem mapNext_withSwitch_forgetTracked (k : Byte) (s : State) {f g : Switch → Host.Outcome State Fault Refusal}
    (h : ∀ w, mapNext forgetTracked (f (untrack w)) = mapNext forgetTracked (g w)) :
    mapNext forgetTracked (withSwitch k (forgetTracked s) f) = mapNext forgetTracked (withSwitch k s g) := by
  rcases withSwitch_cases k s g with ⟨w, hw, e⟩ | ⟨missing, e⟩
  · have forgot : (forgetTracked s).sw[k.toNat]? = some (untrack w) := by
      rw [forgetTracked, List.getElem?_map, hw, Option.map_some]
    rw [e, withSwitch_some forgot, h]
  · have forgot : (forgetTracked s).sw.length ≤ k.toNat := (List.length_map untrack).trans_le missing
    rw [e, withSwitch_none forgot]
    exact congrArg (Host.Outcome.next ∘ refuse .badInstance) (forgetTracked_forgetTracked s)

theorem pushByte_forgetTracked (b : Byte) (s : State) :
    pushByte b (forgetTracked s) = forgetTracked (pushByte b s) := by
  by_cases hb : b = endMarker
  · rw [hb, pushByte_end, pushByte_end]
    rfl
  · by_cases full : s.rxbuf.length = s.cfg.bufCap
    · exact (pushByte_full (s := forgetTracked s) hb full).trans (congrArg forgetTracked (pushByte_full hb full)).symm
    · exact (pushByte_fits (s := forgetTracked s) hb full).trans (congrArg forgetTracked (pushByte_fits hb full)).symm

theorem receive_forgetTracked (l : List Byte) (s : State) :
    receive l (forgetTracked s) = forgetTracked (receive l s) := by
  induction l generalizing s with
  | nil => rfl
  | cons b l ih =>
    by_cases h : s.conn = .closed
    · rw [receive_closed h, receive_closed (s := forgetTracked s) h]
    · rw [receive_cons h, receive_cons (s := forgetTracked s) h, pushByte_forgetTracked, ih]

theorem countDown_untrack (w : Switch) : countDown (untrack w) = untrack (countDown w) := by
  rw [countDown_eq_elapse, countDown_eq_elapse]
  rfl

theorem mapNext_forgetTracked_of_commutes {i : Instr} {s : State}
    (h : exec i (forgetTracked s) = mapNext forgetTracked (exec i s)) :
    mapNext forgetTracked (exec i (forgetTracked s)) = mapNext forgetTracked (exec i s) := by
  rw [h]
  cases exec i s with
  | next t => exact congrArg Host.Outcome.next (forgetTracked_forgetTracked t)
  | fault r => rfl
  | refused r => rfl

/-- No operation reads the tracked values: what it makes of the state without them differs in tracked values only (R172). -/
theorem exec_forgetTracked (i : Instr) (s : State) :
    mapNext forgetTracked (exec i (forgetTracked s)) = mapNext forgetTracked (exec i s) := by
  cases i with
  | enc cmd payload =>
    apply mapNext_forgetTracked_of_commutes
    by_cases h : s.conn = .opened
    · rw [exec_enc_opened h, exec_enc_opened (s := forgetTracked s) h]
      rfl
    · rw [exec_enc_unavailable h, exec_enc_unavailable (s := forgetTracked s) h]
      rfl
  | rxc _ | wireStart | wireEsc _ | wireEnd | wireEscapedPair _ | wireLiteral _ | wireRawLow _ =>
    exact mapNext_forgetTracked_of_commutes (congrArg Host.Outcome.next (receive_forgetTracked _ s))
  | dec _ | close => exact mapNext_forgetTracked_of_commutes rfl
  | bind => exact mapNext_forgetTracked_of_commutes (by rw [exec_bind, exec_bind]; rfl)
  | reset => rfl
  | tick =>
    have commutes : (s.sw.map untrack).map countDown = (s.sw.map countDown).map untrack := by
      simp only [List.map_map, Function.comp_def, countDown_untrack]
    apply mapNext_forgetTracked_of_commutes
    exact congrArg (fun sw => Host.Outcome.next { s with sw := sw }) commutes
  | pev k prop val =>
    refine mapNext_withSwitch_forgetTracked k s fun w => ?_
    rw [apply_ite (mapNext forgetTracked), apply_ite (mapNext forgetTracked)]
    exact ite_congr rfl (fun _ => mapNext_watchedEvent_forgetTracked k val (track val w) s)
      (fun _ => congrArg Host.Outcome.next (forgetTracked_forgetTracked s))
  | ton k =>
    exact mapNext_withSwitch_forgetTracked k s fun w => congrArg Host.Outcome.next
      (forgetTracked_assign (w := disarm w) (w' := disarm (untrack w)) rfl k true s)
  | toff k =>
    exact mapNext_withSwitch_forgetTracked k s fun w => congrArg Host.Outcome.next (forgetTracked_assign rfl ..)
  | texp k =>
    refine mapNext_withSwitch_forgetTracked k s fun w => ?_
    rw [apply_ite (mapNext forgetTracked), apply_ite (mapNext forgetTracked)]
    exact ite_congr rfl (fun _ => congrArg Host.Outcome.next (forgetTracked_assign rfl ..))
      (fun _ => congrArg (Host.Outcome.next ∘ refuse .texpNotEnabled) (forgetTracked_forgetTracked s))

theorem mapNext_eq_next {f : State → State} {o : Host.Outcome State Fault Refusal} {u : State}
    (h : mapNext f o = .next u) : ∃ t, o = .next t ∧ f t = u := by
  cases o with
  | next t => exact ⟨t, rfl, Host.Outcome.next.inj h⟩
  | fault r => cases h
  | refused r => cases h

/-- Settles O52: the two states are the same without their tracked values. -/
theorem trackedValueIsNotRead : Obligations.TrackedValueIsNotRead := by
  intro i s t k w valid value hw h
  have start : forgetTracked { s with sw := s.sw.set k { w with trackedValid := valid, trackedValue := value } } =
      forgetTracked s := forgetTracked_eq_iff.mpr ⟨rfl, map_untrack_set hw rfl⟩
  have same := (exec_forgetTracked i _).symm.trans (start ▸ exec_forgetTracked i s)
  rw [h] at same
  obtain ⟨t', run, forgot⟩ := mapNext_eq_next same
  exact ⟨t', run, forgetTracked_eq_iff.mp forgot⟩

end Sys2Proof.Machine
end


section
/-! SUPPORT. The exception rules (60_exceptions.md): the switches are independent of each other (section 6,
R219), and the codes of the error events (section 1, R200). -/

namespace Sys2Proof.Machine

/-! ## An operation on one switch (R219) -/

/-- From `s` to `t` no switch but k changed, and none came or went. -/
def OtherSwitchesKept (k : Byte) (s t : State) : Prop :=
  t.sw.length = s.sw.length ∧ ∀ j : Nat, j ≠ k.toNat → t.sw[j]? = s.sw[j]?

section OneSwitch

variable {k : Byte} {s t : State} {w : Switch}

theorem otherSwitchesKept_of_sw_eq (h : t.sw = s.sw) : OtherSwitchesKept k s t := by
  rw [OtherSwitchesKept, h]
  exact ⟨rfl, fun _ _ => rfl⟩

theorem otherSwitchesKept_of_sw_eq_set (h : t.sw = s.sw.set k.toNat w) : OtherSwitchesKept k s t := by
  rw [OtherSwitchesKept, h]
  exact ⟨List.length_set, fun _ other => List.getElem?_set_ne other.symm⟩

theorem otherSwitchesKept_putSwitch : OtherSwitchesKept k s (putSwitch k w s) :=
  otherSwitchesKept_of_sw_eq_set (putSwitch_sw s k w)

theorem otherSwitchesKept_assign (v : Bool) : OtherSwitchesKept k s (assign k v w s) := by
  rw [assign_eq]
  exact otherSwitchesKept_of_sw_eq_set rfl

/-- An operation on switch k keeps the others when it does so whatever registers switch k has: a refusal keeps all. -/
theorem otherSwitchesKept_withSwitch {f : Switch → Host.Outcome State Fault Refusal} (h : withSwitch k s f = .next t)
    (hf : ∀ w, f w = .next t → OtherSwitchesKept k s t) : OtherSwitchesKept k s t := by
  rcases withSwitch_cases k s f with ⟨w, -, e⟩ | ⟨-, e⟩
  · exact hf w (e.symm.trans h)
  · cases e.symm.trans h
    exact otherSwitchesKept_of_sw_eq rfl

theorem otherSwitchesKept_watchedEvent {val : Byte} (h : watchedEvent k val w s = .next t) :
    OtherSwitchesKept k s t := by
  unfold watchedEvent at h
  split at h
  case h_1 direct => cases h; exact otherSwitchesKept_assign _
  case h_2 toggle | h_3 momentary =>
    split at h <;> cases h
    · exact otherSwitchesKept_assign _
    · exact otherSwitchesKept_putSwitch
  case h_4 reserved => cases h

theorem otherSwitchesKept_pev {prop val : Byte} (h : exec (.pev k prop val) s = .next t) : OtherSwitchesKept k s t :=
  otherSwitchesKept_withSwitch h fun w run => by
    split at run
    case isTrue watched => exact otherSwitchesKept_watchedEvent run
    case isFalse => cases run; exact otherSwitchesKept_of_sw_eq rfl

theorem otherSwitchesKept_ton (h : exec (.ton k) s = .next t) : OtherSwitchesKept k s t :=
  otherSwitchesKept_withSwitch h fun w run => by cases run; exact otherSwitchesKept_assign true

theorem otherSwitchesKept_toff (h : exec (.toff k) s = .next t) : OtherSwitchesKept k s t :=
  otherSwitchesKept_withSwitch h fun w run => by cases run; exact otherSwitchesKept_assign false

theorem otherSwitchesKept_texp (h : exec (.texp k) s = .next t) : OtherSwitchesKept k s t :=
  otherSwitchesKept_withSwitch h fun w run => by
    split at run <;> cases run
    case isTrue enabled => exact otherSwitchesKept_assign false
    case isFalse => exact otherSwitchesKept_of_sw_eq rfl

end OneSwitch

/-- Settles O50: each operation writes the registers of its own switch, or of none. -/
theorem instancesAreIndependent : Obligations.InstancesAreIndependent := by
  intro k prop val i s t hi h
  simp only [List.mem_cons, List.not_mem_nil, or_false] at hi
  rcases hi with rfl | rfl | rfl | rfl
  · exact otherSwitchesKept_pev h
  · exact otherSwitchesKept_ton h
  · exact otherSwitchesKept_toff h
  · exact otherSwitchesKept_texp h

/-! ## The error codes (R200) -/

/-- Settles O24: each error has one code, and only the two truncations share theirs. -/
theorem errorCodes : Obligations.ErrorCodes := by
  intro e
  cases e <;> simp [errCode]

end Sys2Proof.Machine
end


section
/-! SUPPORT. The start state and RESET (70_reset_and_hazards.md): what power-on gives every instance, what RESET makes of any
state, and that a closed connection has no other way out. -/

namespace Sys2Proof.Machine

/-! ## The start state -/

/-- An instance starts with its parameter's settings, unarmed and with nothing tracked (R39). -/
theorem switchInv_ofInit (c : CfgInit) : SwitchInv c (Switch.ofInit c) where
  mode := rfl
  inverted := rfl
  revertDelay := rfl
  watchedProp := rfl
  initOn := rfl
  unarmed _ := rfl
  armed := nofun
  untracked _ := rfl

theorem machineInv_powerOn {c : Config} (h : configOk c = true) : MachineInv (State.powerOn c) where
  config := h
  capacity := Nat.zero_le _
  noEndMarker := List.not_mem_nil
  closedEmpty _ := rfl
  switches := List.forall₂_map_right_iff.mpr (List.forall₂_same.mpr fun x _ => switchInv_ofInit x)
  refusal := rfl

/-- Settles O58: every instance starts consistent with its parameter, and the buffer starts empty. -/
theorem powerOnSatisfiesInv : Obligations.PowerOnSatisfiesInv := fun c h =>
  ⟨machineInv_powerOn h, powerOn_txstream c, powerOn_ev c, powerOn_refused c, powerOn_conn c, powerOn_rxbuf c⟩

/-! ## RESET -/

/-- The start state of the parameters of `s`, with the output records and the mark of `s` and the model's own fields (R230). -/
def afterReset (s : State) : State :=
  { State.powerOn s.cfg with
    txstream := s.txstream, ev := s.ev, refused := s.refused, refusedWhy := s.refusedWhy
    pending := s.pending, turn := s.turn }

theorem exec_reset (s : State) : exec .reset s = .next (afterReset s) := rfl

theorem getElem?_powerOn_sw {c : Config} {k : Nat} {x : CfgInit} (h : c.cfgInit[k]? = some x) :
    (State.powerOn c).sw[k]? = some (Switch.ofInit x) := by
  rw [powerOn_sw, List.getElem?_map, h, Option.map_some]

/-- Settles O40: `afterReset` is the meaning of RESET, and its switches are those of the start state. -/
theorem resetResult : Obligations.ResetResult :=
  ⟨rfl, fun s => ⟨afterReset s, exec_reset s, rfl, rfl, List.length_map _, fun _ _ h => getElem?_powerOn_sw h,
    rfl, rfl, rfl, rfl, rfl, rfl, rfl, rfl⟩⟩

/-! ## A closed connection -/

/-- Of the writers of `CONN` (R24) only RESET takes a closed connection to another state. -/
theorem exec_conn_of_closed {i : Instr} {s t : State} (closed : s.conn = .closed) (notReset : i ≠ .reset)
    (h : exec i s = .next t) : t.conn = .closed := by
  by_contra changed
  rw [← closed] at changed
  rcases connWriters i s t h changed with ⟨-, isUnbound, -⟩ | ⟨-, stays⟩ | ⟨isReset, -⟩ | ⟨-, stays, -⟩
  · cases closed.symm.trans isUnbound
  · exact changed (stays.trans closed.symm)
  · exact notReset isReset
  · exact changed (stays.trans closed.symm)

/-- ENC writes on an open connection only (R26), and no other operation writes. -/
theorem exec_txstream_of_closed {i : Instr} {s t : State} (closed : s.conn = .closed) (h : exec i s = .next t) :
    t.txstream = s.txstream := by
  rcases onlyEncWrites i s t h with kept | ⟨cmd, payload, -, isOpen, -⟩
  · exact kept
  · cases closed.symm.trans isOpen

theorem exec_rxc_closed {s : State} (closed : s.conn = .closed) (chunk : List Byte) :
    exec (.rxc chunk) s = .next s := by
  rw [exec_rxc, receive_closed closed]

/-- Settles O37: by the writers of `CONN` and of `TXSTREAM`, and by what reception does when closed. -/
theorem closedUntilReset : Obligations.ClosedUntilReset := by
  intro i s t closed notReset h
  refine ⟨exec_conn_of_closed closed notReset h, exec_txstream_of_closed closed h, ?_⟩
  rintro ⟨chunk, rfl⟩
  exact Host.Outcome.next.inj (h.symm.trans (exec_rxc_closed closed chunk))

end Sys2Proof.Machine
end


section
/-! SUPPORT. The two ports (30_encoding.md sections 3 and 4): what each operand form of the command port reads, the class of each
byte of the wire, and that decoding and encoding undo each other. -/

namespace Sys2Proof.Machine

/-! ## The command port -/

section Operands

variable {i j : Instr} {args : List Byte}

theorem countBytes_of_length {hi lo : Byte} {l : List Byte} (count : l.length = (u16 hi lo).toNat) :
    countBytes l = [hi, lo] := by
  rw [countBytes, count, BitVec.ofNat_toNat, BitVec.setWidth_eq, be16_u16]

/-- Counted bytes are read only where the count is theirs, which is at most 65535 (30_encoding.md R81). -/
theorem counted_eq_ok {mk : List Byte → Instr} (h : counted mk args = .ok i) :
    ∃ body : List Byte, body.length ≤ 65535 ∧ args = countBytes body ++ body ∧ i = mk body := by
  unfold counted at h
  split at h
  case h_1 n1 n0 body =>
    split at h <;> cases h
    next count => exact ⟨body, by omega, by rw [countBytes_of_length count]; rfl, rfl⟩
  case h_2 => cases h

theorem encOperands_eq_ok (h : encOperands args = .ok i) :
    ∃ (cmd : Word16) (payload : List Byte),
      payload.length ≤ 65535 ∧ args = be16 cmd ++ countBytes payload ++ payload ∧ i = .enc cmd payload := by
  unfold encOperands at h
  split at h
  case h_1 c1 c0 rest =>
    obtain ⟨payload, fits, rfl, rfl⟩ := counted_eq_ok h
    exact ⟨u16 c1 c0, payload, fits, by rw [be16_u16]; rfl, rfl⟩
  case h_2 => cases h

theorem noOperand_eq_ok (h : noOperand j args = .ok i) : args = [] ∧ i = j := by
  unfold noOperand at h
  split at h <;> cases h
  exact ⟨rfl, rfl⟩

theorem oneOperand_eq_ok {mk : Byte → Instr} (h : oneOperand mk args = .ok i) : ∃ k, args = [k] ∧ i = mk k := by
  unfold oneOperand at h
  split at h <;> cases h
  exact ⟨_, rfl, rfl⟩

theorem pevOperands_eq_ok (h : pevOperands args = .ok i) :
    ∃ k prop val, args = [k, prop, val] ∧ i = .pev k prop val := by
  unfold pevOperands at h
  split at h <;> cases h
  exact ⟨_, _, _, rfl, rfl⟩

end Operands

theorem decodeCommand_encode_rxc {chunk : List Byte} (h : chunk.length ≤ 65535) :
    decodeCommand (encode (.rxc chunk)) = .ok (.rxc chunk) :=
  counted_countBytes .rxc h

/-- Settles O1: counted bytes are read as they were spelled, and the other operands are the bytes themselves. -/
theorem commandDecodeOfEncode : Obligations.CommandDecodeOfEncode := by
  intro i wf port
  cases i with
  | enc cmd payload => exact decodeCommand_encode_enc cmd (of_decide_eq_true wf)
  | dec span => exact decodeCommand_encode_dec (of_decide_eq_true wf)
  | rxc chunk => exact decodeCommand_encode_rxc (of_decide_eq_true wf)
  | bind | close | pev _ _ _ | ton _ | toff _ | tick | texp _ | reset => rfl
  | wireStart | wireEsc _ | wireEnd | wireEscapedPair _ | wireLiteral _ | wireRawLow _ => cases port

theorem mem_opcodes_iff {op : Byte} : op ∈ opcodes ↔ op = 0x10 ∨ op = 0x11 ∨ op = 0x20 ∨ op = 0x30 ∨ op = 0x31 ∨
    op = 0x40 ∨ op = 0x41 ∨ op = 0x42 ∨ op = 0x43 ∨ op = 0x44 ∨ op = 0xFF := by
  simp only [opcodes, List.mem_cons, List.not_mem_nil, or_false]

/-- An opcode that is none of the eleven of the table is illegal, whatever follows (R82). -/
theorem decodeCommand_unassigned {op : Byte} (unassigned : op ∉ opcodes) (args : List Byte) :
    decodeCommand (op :: args) = .error .illegalOpcode := by
  simp only [mem_opcodes_iff, not_or] at unassigned
  obtain ⟨enc, dec, rxc, bind, close, pev, ton, toff, tick, texp, reset⟩ := unassigned
  rw [decodeCommand, if_neg enc, if_neg dec, if_neg rxc, if_neg bind, if_neg close, if_neg pev, if_neg ton, if_neg toff,
    if_neg tick, if_neg texp, if_neg reset]

theorem opcode_of_decodeCommand {op : Byte} {args : List Byte} {i : Instr} (h : decodeCommand (op :: args) = .ok i) :
    op ∈ opcodes := by
  by_contra unassigned
  cases (decodeCommand_unassigned unassigned args).symm.trans h

/-- Settles O2: by the opcode, each operand form reads only the operands that its instruction spells. -/
theorem commandEncodeOfDecode : Obligations.CommandEncodeOfDecode := by
  intro word i h
  cases word with
  | nil => cases h
  | cons op args =>
    rcases mem_opcodes_iff.mp (opcode_of_decodeCommand h) with
      rfl | rfl | rfl | rfl | rfl | rfl | rfl | rfl | rfl | rfl | rfl
    · obtain ⟨cmd, payload, fits, rfl, rfl⟩ := encOperands_eq_ok h
      exact ⟨rfl, decide_eq_true fits, rfl⟩
    · obtain ⟨span, fits, rfl, rfl⟩ := counted_eq_ok h
      exact ⟨rfl, decide_eq_true fits, rfl⟩
    · obtain ⟨chunk, fits, rfl, rfl⟩ := counted_eq_ok h
      exact ⟨rfl, decide_eq_true fits, rfl⟩
    · obtain ⟨rfl, rfl⟩ := noOperand_eq_ok h
      exact ⟨rfl, rfl, rfl⟩
    · obtain ⟨rfl, rfl⟩ := noOperand_eq_ok h
      exact ⟨rfl, rfl, rfl⟩
    · obtain ⟨k, prop, val, rfl, rfl⟩ := pevOperands_eq_ok h
      exact ⟨rfl, rfl, rfl⟩
    · obtain ⟨k, rfl, rfl⟩ := oneOperand_eq_ok h
      exact ⟨rfl, rfl, rfl⟩
    · obtain ⟨k, rfl, rfl⟩ := oneOperand_eq_ok h
      exact ⟨rfl, rfl, rfl⟩
    · obtain ⟨rfl, rfl⟩ := noOperand_eq_ok h
      exact ⟨rfl, rfl, rfl⟩
    · obtain ⟨k, rfl, rfl⟩ := oneOperand_eq_ok h
      exact ⟨rfl, rfl, rfl⟩
    · obtain ⟨rfl, rfl⟩ := noOperand_eq_ok h
      exact ⟨rfl, rfl, rfl⟩

/-- Settles O5: the words are fixed. -/
theorem specWordsDecode : Obligations.SpecWordsDecode := ⟨rfl, rfl, rfl, rfl, rfl, rfl, rfl, rfl⟩

/-! ## The wire port -/

section WireUnits

variable {b c : Byte}

theorem wellFormed_wireRawLow_iff :
    wellFormed (.wireRawLow b) = true ↔ b < 0x10 ∧ b ≠ startMarker ∧ b ≠ escMarker ∧ b ≠ endMarker := by
  simp [wellFormed, and_assoc]

/-- The five classes of a byte that begins no pair (R76). -/
theorem wireUnit_cases (b : Byte) :
    (b = startMarker ∧ wireUnit b = .wireStart) ∨ (b = escMarker ∧ wireUnit b = .wireEsc none) ∨
    (b = endMarker ∧ wireUnit b = .wireEnd) ∨ (wellFormed (.wireRawLow b) = true ∧ wireUnit b = .wireRawLow b) ∨
    (wellFormed (.wireLiteral b) = true ∧ wireUnit b = .wireLiteral b) := by
  unfold wireUnit
  split
  · next start => exact .inl ⟨start, rfl⟩
  next notStart =>
  split
  · next esc => exact .inr (.inl ⟨esc, rfl⟩)
  next notEsc =>
  split
  · next fin => exact .inr (.inr (.inl ⟨fin, rfl⟩))
  next notEnd =>
  split
  · next low =>
    exact .inr (.inr (.inr (.inl ⟨wellFormed_wireRawLow_iff.mpr ⟨low, notStart, notEsc, notEnd⟩, rfl⟩)))
  · next high => exact .inr (.inr (.inr (.inr ⟨decide_eq_true (BitVec.not_lt.mp high), rfl⟩)))

@[simp] theorem encode_wireUnit (b : Byte) : encode (wireUnit b) = [b] := by
  rcases wireUnit_cases b with ⟨rfl, e⟩ | ⟨rfl, e⟩ | ⟨rfl, e⟩ | ⟨-, e⟩ | ⟨-, e⟩ <;> rw [e] <;> rfl

@[simp] theorem portOf_wireUnit (b : Byte) : portOf (wireUnit b) = .wire := by
  rcases wireUnit_cases b with ⟨-, e⟩ | ⟨-, e⟩ | ⟨-, e⟩ | ⟨-, e⟩ | ⟨-, e⟩ <;> rw [e] <;> rfl

theorem wellFormed_wireUnit (b : Byte) : wellFormed (wireUnit b) = true := by
  rcases wireUnit_cases b with ⟨-, e⟩ | ⟨-, e⟩ | ⟨-, e⟩ | ⟨wf, e⟩ | ⟨wf, e⟩ <;> rw [e]
  · rfl
  · rfl
  · rfl
  · exact wf
  · exact wf

@[simp] theorem encode_escUnit (c : Byte) : encode (escUnit c) = [escMarker, c] := by
  unfold escUnit
  split <;> rfl

@[simp] theorem portOf_escUnit (c : Byte) : portOf (escUnit c) = .wire := by
  unfold escUnit
  split <;> rfl

theorem escPair_eq_true_iff : escPair b c = true ↔ b = escMarker ∧ c ≠ startMarker ∧ c ≠ endMarker := by
  simp [escPair, and_assoc]

theorem wellFormed_escUnit (pair : escPair b c = true) : wellFormed (escUnit c) = true := by
  obtain ⟨-, notStart, notEnd⟩ := escPair_eq_true_iff.mp pair
  unfold escUnit
  split
  · assumption
  · next other => simp [wellFormed, isNonCanon, other, notStart, notEnd]

theorem decodeWire_pair (pair : escPair b c = true) (rest : List Byte) :
    decodeWire (b :: c :: rest) = some (escUnit c, rest) := if_pos pair

/-- A byte that begins no pair with the one after it is cut off alone. -/
theorem decodeWire_alone {rest : List Byte} (alone : ∀ c ∈ rest.head?, ¬escPair b c = true) :
    decodeWire (b :: rest) = some (wireUnit b, rest) := by
  cases rest with
  | nil => rfl
  | cons c rest => exact if_neg (alone c rfl)

theorem decodeWire_of_ne_escMarker (h : b ≠ escMarker) (rest : List Byte) :
    decodeWire (b :: rest) = some (wireUnit b, rest) :=
  decodeWire_alone fun _ _ pair => h (escPair_eq_true_iff.mp pair).1

/-- An escape marker takes the next byte with it when the two are a unit. -/
theorem decodeWire_esc (notStart : c ≠ startMarker) (notEnd : c ≠ endMarker) (rest : List Byte) :
    decodeWire (escMarker :: c :: rest) = some (escUnit c, rest) :=
  decodeWire_pair (escPair_eq_true_iff.mpr ⟨rfl, notStart, notEnd⟩) rest

theorem ne_markers_of_high (high : 0x10 ≤ b) : b ≠ startMarker ∧ b ≠ escMarker ∧ b ≠ endMarker :=
  ⟨fun h => absurd (h ▸ high) (by decide), fun h => absurd (h ▸ high) (by decide), fun h => absurd (h ▸ high) (by decide)⟩

theorem wireUnit_of_high (high : 0x10 ≤ b) : wireUnit b = .wireLiteral b := by
  obtain ⟨notStart, notEsc, notEnd⟩ := ne_markers_of_high high
  rw [wireUnit, if_neg notStart, if_neg notEsc, if_neg notEnd, if_neg (BitVec.not_lt.mpr high)]

theorem wireUnit_of_rawLow (wf : wellFormed (.wireRawLow b) = true) : wireUnit b = .wireRawLow b := by
  obtain ⟨low, notStart, notEsc, notEnd⟩ := wellFormed_wireRawLow_iff.mp wf
  rw [wireUnit, if_neg notStart, if_neg notEsc, if_neg notEnd, if_pos low]

theorem isEscaped_iff : isEscaped b = true ↔ 0x10 ≤ b ∧ b ≤ 0x1F := by simp [isEscaped]

theorem isNonCanon_iff : isNonCanon b = true ↔ ¬isEscaped b = true ∧ b ≠ startMarker ∧ b ≠ endMarker := by
  simp [isNonCanon, and_assoc]

end WireUnits

/-- Settles O3: a unit of two bytes is an escape pair; a unit of one is cut off alone, as no escape marker or with no pair
behind it. -/
theorem wireDecodeOfEncode : Obligations.WireDecodeOfEncode := by
  intro i rest wf port escAlone
  cases i with
  | wireStart | wireEnd => exact decodeWire_of_ne_escMarker (by decide) rest
  | wireEsc next =>
    cases next with
    | none =>
      refine decodeWire_alone fun c hc pair => ?_
      obtain ⟨-, notStart, notEnd⟩ := escPair_eq_true_iff.mp pair
      exact (escAlone rfl c hc).elim notStart notEnd
    | some c =>
      obtain ⟨other, notStart, notEnd⟩ := isNonCanon_iff.mp wf
      exact (decodeWire_esc notStart notEnd rest).trans (by rw [escUnit, if_neg other])
  | wireEscapedPair e =>
    obtain ⟨notStart, -, notEnd⟩ := ne_markers_of_high (isEscaped_iff.mp wf).1
    exact (decodeWire_esc notStart notEnd rest).trans (by rw [escUnit, if_pos (show isEscaped e = true from wf)])
  | wireLiteral b =>
    have high : 0x10 ≤ b := of_decide_eq_true wf
    obtain ⟨-, notEsc, -⟩ := ne_markers_of_high high
    exact (decodeWire_of_ne_escMarker notEsc rest).trans (by rw [wireUnit_of_high high])
  | wireRawLow b =>
    obtain ⟨-, -, notEsc, -⟩ := wellFormed_wireRawLow_iff.mp wf
    exact (decodeWire_of_ne_escMarker notEsc rest).trans (by rw [wireUnit_of_rawLow wf])
  | enc _ _ | dec _ | rxc _ | bind | close | pev _ _ _ | ton _ | toff _ | tick | texp _ | reset => cases port

/-- The two ways in which a unit begins a stream: as a pair, or alone. -/
theorem decodeWire_cases (b : Byte) (more : List Byte) :
    (∃ c rest, more = c :: rest ∧ escPair b c = true ∧ decodeWire (b :: more) = some (escUnit c, rest)) ∨
      decodeWire (b :: more) = some (wireUnit b, more) := by
  by_cases pair : ∃ c ∈ more.head?, escPair b c = true
  · obtain ⟨c, hc, pair⟩ := pair
    obtain ⟨rest, rfl⟩ := List.head?_eq_some_iff.mp hc
    exact .inl ⟨c, rest, rfl, pair, decodeWire_pair pair rest⟩
  · exact .inr (decodeWire_alone fun c hc h => pair ⟨c, hc, h⟩)

/-- Settles O4: both ways in which a unit begins a stream give a well-formed unit of the wire with the bytes that it took. -/
theorem wireEncodeOfDecode : Obligations.WireEncodeOfDecode := by
  refine ⟨fun bytes i rest h => ?_, fun b more => ?_⟩
  · cases bytes with
    | nil => cases h
    | cons b more =>
      rcases decodeWire_cases b more with ⟨c, tail, rfl, pair, e⟩ | e
      · cases e.symm.trans h
        obtain ⟨rfl, -⟩ := escPair_eq_true_iff.mp pair
        exact ⟨portOf_escUnit c, wellFormed_escUnit pair, by rw [encode_escUnit]; rfl⟩
      · cases e.symm.trans h
        exact ⟨portOf_wireUnit b, wellFormed_wireUnit b, by rw [encode_wireUnit]; rfl⟩
  · rcases decodeWire_cases b more with ⟨c, rest, -, -, e⟩ | e
    · exact ⟨_, e⟩
    · exact ⟨_, e⟩

end Sys2Proof.Machine
end


section
/-! SUPPORT. The invariant of the machine: what keeps the registers of one switch consistent with their parameter, what keeps
the whole state so, and that every operation and every step does. -/

namespace Sys2Proof.Machine

/-! ## The registers of one switch -/

section OneSwitchInv

variable {c : CfgInit} {w : Switch}

/-- Only a momentary switch has a revert pending (43_switch_fsm.md R163, R164). -/
theorem unarmed_of_not_momentary (inv : SwitchInv c w) (mode : w.mode ≠ .momentary) : w.tmrArmed = false := by
  by_contra armed
  exact mode (inv.armed (Bool.eq_true_of_not_eq_false armed)).1

theorem switchInv_setOn (inv : SwitchInv c w) (unarmed : w.tmrArmed = false) (v : Bool) : SwitchInv c (setOn v w) :=
  { inv with armed := fun armed => absurd armed (Bool.eq_false_iff.mp unarmed) }

theorem switchInv_disarm (inv : SwitchInv c w) : SwitchInv c (disarm w) :=
  { inv with unarmed := fun _ => rfl, armed := nofun }

theorem switchInv_offSwitch (inv : SwitchInv c w) : SwitchInv c (offSwitch w) :=
  { inv with unarmed := fun _ => rfl, armed := nofun, untracked := fun _ => rfl }

theorem switchInv_track (inv : SwitchInv c w) (val : Byte) : SwitchInv c (track val w) :=
  { inv with
    armed := fun armed => by
      obtain ⟨mode, on, -, remain⟩ := inv.armed armed
      exact ⟨mode, on, rfl, remain⟩
    untracked := nofun }

/-- An activation of a momentary switch arms its timer with the full delay (R165). -/
theorem switchInv_activated (inv : SwitchInv c w) (mode : w.mode = .momentary) (tracked : w.trackedValid = true) :
    SwitchInv c (setOn true (arm w)) :=
  { inv with unarmed := nofun, armed := fun _ => ⟨mode, rfl, tracked, BitVec.le_refl _⟩ }

/-- The remaining time only goes down (R169). -/
theorem switchInv_countDown (inv : SwitchInv c w) : SwitchInv c (countDown w) := by
  by_cases armed : w.tmrArmed = true
  · have down : (elapse 1 w).tmrRemain ≤ w.tmrRemain := by
      rw [BitVec.le_def, toNat_tmrRemain_elapse armed]
      exact Nat.sub_le _ 1
    obtain ⟨mode, on, tracked, remain⟩ := inv.armed armed
    rw [countDown_eq_elapse]
    exact { inv with
      unarmed := fun unarmed => absurd armed (Bool.eq_false_iff.mp unarmed)
      armed := fun _ => ⟨mode, on, tracked, BitVec.le_trans down remain⟩ }
  · rwa [countDown_eq_elapse, elapse_unarmed armed]

end OneSwitchInv

theorem forall₂_set {α β : Type} {R : α → β → Prop} {l : List α} {m : List β} {k : Nat} {x y : β}
    (h : List.Forall₂ R l m) (hx : m[k]? = some x) (keeps : ∀ a, R a x → R a y) : List.Forall₂ R l (m.set k y) := by
  induction h generalizing k with
  | nil => cases hx
  | cons first rest ih =>
    cases k with
    | zero => cases hx; exact .cons (keeps _ first) rest
    | succ k => exact .cons first (ih hx)

/-! ## The whole state -/

section WholeState

variable {s t : State} {k : Byte} {w w' : Switch}

/-- The invariant does not speak of the output records, the inputs and the counter. -/
theorem machineInv_records (inv : MachineInv s) (txstream : List Byte) (ev : List Event) (pending : List Input)
    (turn : Nat) : MachineInv { s with txstream := txstream, ev := ev, pending := pending, turn := turn } :=
  ⟨inv.config, inv.capacity, inv.noEndMarker, inv.closedEmpty, inv.switches, inv.refusal⟩

/-- With an empty buffer every connection state is allowed (42_connection.md R153). -/
theorem machineInv_emptyBuffer (inv : MachineInv s) (conn : Conn) (ev : List Event) :
    MachineInv { s with rxbuf := [], conn := conn, ev := ev } :=
  { inv with capacity := Nat.zero_le _, noEndMarker := List.not_mem_nil, closedEmpty := fun _ => rfl }

theorem machineInv_refuse (inv : MachineInv s) (r : RefuseReason) : MachineInv (refuse r s) :=
  { inv with refusal := rfl }

theorem machineInv_putSwitch (inv : MachineInv s) (hw : s.sw[k.toNat]? = some w)
    (keeps : ∀ c, SwitchInv c w → SwitchInv c w') : MachineInv (putSwitch k w' s) :=
  { inv with switches := forall₂_set inv.switches hw keeps }

theorem machineInv_assign (inv : MachineInv s) (hw : s.sw[k.toNat]? = some w) {v : Bool}
    (keeps : ∀ c, SwitchInv c w → SwitchInv c (setOn v w')) : MachineInv (assign k v w' s) := by
  rw [assign_eq]
  exact machineInv_records (machineInv_putSwitch inv hw keeps) _ _ _ _

/-- An operation on switch k keeps the invariant when it does so with the registers that it reads. -/
theorem machineInv_withSwitch {f : Switch → Host.Outcome State Fault Refusal} (inv : MachineInv s)
    (h : withSwitch k s f = .next t) (hf : ∀ w, s.sw[k.toNat]? = some w → f w = .next t → MachineInv t) :
    MachineInv t := by
  rcases withSwitch_cases k s f with ⟨w, hw, e⟩ | ⟨-, e⟩
  · exact hf w hw (e.symm.trans h)
  · cases e.symm.trans h
    exact machineInv_refuse inv .badInstance

/-! ## The switch operations -/

theorem machineInv_watchedEvent {val : Byte} (inv : MachineInv s) (hw : s.sw[k.toNat]? = some w)
    (h : watchedEvent k val (track val w) s = .next t) : MachineInv t := by
  have tracks : ∀ c, SwitchInv c w → SwitchInv c (track val w) := fun c wInv => switchInv_track wInv val
  have assigns (mode : (track val w).mode ≠ .momentary) (v : Bool) : MachineInv (assign k v (track val w) s) :=
    machineInv_assign inv hw fun c wInv =>
      switchInv_setOn (tracks c wInv) (unarmed_of_not_momentary (tracks c wInv) mode) v
  unfold watchedEvent at h
  split at h
  case h_1 direct => cases h; exact assigns (by rw [direct]; decide) _
  case h_2 toggle =>
    split at h <;> cases h
    · exact assigns (by rw [toggle]; decide) _
    · exact machineInv_putSwitch inv hw tracks
  case h_3 momentary =>
    split at h <;> cases h
    · exact machineInv_assign inv hw fun c wInv => switchInv_activated (tracks c wInv) momentary rfl
    · exact machineInv_putSwitch inv hw tracks
  case h_4 reserved => cases h

theorem machineInv_turnOff (inv : MachineInv s) (hw : s.sw[k.toNat]? = some w) : MachineInv (turnOff k w s) :=
  machineInv_assign (w' := untrack (disarm w)) inv hw fun _ => switchInv_offSwitch

theorem machineInv_pev {prop val : Byte} (inv : MachineInv s) (h : exec (.pev k prop val) s = .next t) :
    MachineInv t :=
  machineInv_withSwitch inv h fun w hw run => by
    split at run
    · exact machineInv_watchedEvent inv hw run
    · cases run; exact inv

theorem machineInv_ton (inv : MachineInv s) (h : exec (.ton k) s = .next t) : MachineInv t :=
  machineInv_withSwitch inv h fun w hw run => by
    cases run
    exact machineInv_assign inv hw fun _ wInv => switchInv_setOn (switchInv_disarm wInv) rfl true

theorem machineInv_toff (inv : MachineInv s) (h : exec (.toff k) s = .next t) : MachineInv t :=
  machineInv_withSwitch inv h fun w hw run => by cases run; exact machineInv_turnOff inv hw

theorem machineInv_texp (inv : MachineInv s) (h : exec (.texp k) s = .next t) : MachineInv t :=
  machineInv_withSwitch inv h fun w hw run => by
    split at run <;> cases run
    · exact machineInv_turnOff inv hw
    · exact machineInv_refuse inv .texpNotEnabled

theorem machineInv_tick (inv : MachineInv s) : MachineInv { s with sw := s.sw.map countDown } :=
  { inv with switches := List.forall₂_map_right_iff.mpr (inv.switches.imp fun _ _ => switchInv_countDown) }

/-! ## Reception, the connection and RESET -/

theorem machineInv_bufAppend (inv : MachineInv s) (h : s.conn ≠ .closed) {b : Byte} (hb : b ≠ endMarker)
    (room : s.rxbuf.length ≠ s.cfg.bufCap) : MachineInv (bufAppend b s) :=
  { inv with
    capacity := by
      have within := inv.capacity
      rw [bufAppend_rxbuf, List.length_append, List.length_singleton, bufAppend_cfg]
      omega
    noEndMarker := by simp [inv.noEndMarker, hb.symm]
    closedEmpty := fun closed => absurd closed h }

theorem machineInv_pushByte (inv : MachineInv s) (h : s.conn ≠ .closed) (b : Byte) : MachineInv (pushByte b s) := by
  rcases pushByte_cases b s with ⟨-, evs, e⟩ | ⟨hb, full, -⟩ | ⟨hb, room, e⟩
  · rw [e]
    exact machineInv_emptyBuffer inv s.conn _
  · rw [pushByte_full hb full]
    exact machineInv_emptyBuffer inv .closed _
  · rw [e]
    exact machineInv_bufAppend inv h hb room

theorem machineInv_receive (inv : MachineInv s) (l : List Byte) : MachineInv (receive l s) := by
  induction l generalizing s with
  | nil => exact inv
  | cons b l ih =>
    by_cases h : s.conn = .closed
    · rwa [receive_closed h]
    · rw [receive_cons h]
      exact ih (machineInv_pushByte inv h b)

theorem machineInv_afterBind (inv : MachineInv s) : MachineInv (afterBind s) := by
  by_cases h : s.conn = .unbound
  · rw [afterBind_unbound h]
    exact { inv with closedEmpty := nofun }
  · rwa [afterBind_of_ne_unbound h]

theorem machineInv_afterReset (inv : MachineInv s) : MachineInv (afterReset s) :=
  { machineInv_powerOn inv.config with refusal := inv.refusal }

/-! ## Every operation and every step -/

theorem machineInv_exec {i : Instr} (inv : MachineInv s) (h : exec i s = .next t) : MachineInv t := by
  cases i with
  | enc cmd payload =>
    by_cases opened : s.conn = .opened
    · rw [exec_enc_opened opened] at h; cases h
      exact machineInv_records inv _ _ _ _
    · rw [exec_enc_unavailable opened] at h; cases h
      exact machineInv_records inv _ _ _ _
  | dec span => cases h; exact machineInv_records inv _ _ _ _
  | rxc _ | wireStart | wireEsc _ | wireEnd | wireEscapedPair _ | wireLiteral _ | wireRawLow _ =>
    cases h; exact machineInv_receive inv _
  | bind => rw [exec_bind] at h; cases h; exact machineInv_afterBind inv
  | close => cases h; exact machineInv_emptyBuffer inv .closed s.ev
  | reset => rw [exec_reset] at h; cases h; exact machineInv_afterReset inv
  | pev k prop val => exact machineInv_pev inv h
  | ton k => exact machineInv_ton inv h
  | toff k => exact machineInv_toff inv h
  | tick => cases h; exact machineInv_tick inv
  | texp k => exact machineInv_texp inv h

theorem machineInv_step (inv : MachineInv s) (h : step s = .next t) : MachineInv t := by
  obtain ⟨-, ⟨i, inputs, turn, run⟩ | ⟨r, inputs, rfl⟩ | ⟨inputs, rfl⟩⟩ := step_cases h
  · exact machineInv_exec (machineInv_records inv s.txstream s.ev inputs turn) run
  · exact machineInv_refuse (machineInv_records inv s.txstream s.ev inputs s.turn) r
  · exact machineInv_records inv s.txstream s.ev inputs s.turn

end WholeState

/-- Settles O56: every kind of step is an operation, a refusal or a read, and each keeps the invariant. -/
theorem stepKeepsInv : Obligations.StepKeepsInv := fun _ _ => machineInv_step

/-- Settles O57: the parameters of the reset state are well-formed. -/
theorem resetSatisfiesInv : Obligations.ResetSatisfiesInv := machineInv_powerOn (by decide)

end Sys2Proof.Machine
end


section
/-! SUPPORT. One step: what it does with a command word, with bytes on the wire and with an administrative request, which words
it refuses, where no run exists, and how the timers act when no input waits. -/

namespace Sys2Proof.Machine

/-! ## Inputs -/

section Inputs

variable {i : Instr} {word : List Byte}

theorem perform_command_assigned (h : decodeCommand word = .ok i) (s : State) :
    perform (.command (agentOf i) word) s = exec i s := by
  simp [perform, performCommand, h]

theorem perform_command_notAssigned (h : decodeCommand word = .ok i) {a : Agent} (other : a ≠ agentOf i) (s : State) :
    perform (.command a word) s = .refused .notAssigned := by
  simp [perform, performCommand, h, other]

theorem perform_command_error {e : DecodeError} (h : decodeCommand word = .error e) (a : Agent) (s : State) :
    perform (.command a word) s = .next (afterRefusal (decodeReason e) s) := by
  simp [perform, performCommand, h, refuse_eq]

theorem perform_wire {bytes more : List Byte} (h : decodeWire bytes = some (i, more)) (s : State) :
    perform (.wire bytes) s = exec i (keepWaiting more s) := by
  simp [perform, performWire, h]

theorem keepWaiting_eq (more : List Byte) (s : State) :
    keepWaiting more s = { s with pending := if more = [] then s.pending else .wire more :: s.pending } := by
  cases more <;> rfl

end Inputs

/-- Settles O7: the word decodes to an operation of the agent that issued it. -/
theorem stepRunsCommandWord : Obligations.StepRunsCommandWord := fun _ _ _ _ config waits decoded =>
  (step_input config waits).trans (perform_command_assigned decoded _)

/-- Settles O8: what the first unit leaves of the bytes waits before the other inputs. -/
theorem stepRunsWireUnit : Obligations.StepRunsWireUnit := by
  intro s i bytes more rest config waits decoded
  rw [step_input config waits, perform_wire decoded, keepWaiting_eq]

/-- Settles O9: by the operation; no word decodes to a unit of the wire. -/
theorem wrongAgentHasNoMove : Obligations.WrongAgentHasNoMove := by
  intro s a i word rest config waits decoded wrong
  have other : a ≠ agentOf i := by
    obtain ⟨port, -⟩ := commandEncodeOfDecode word i decoded
    cases i with
    | wireStart | wireEsc _ | wireEnd | wireEscapedPair _ | wireLiteral _ | wireRawLow _ => cases port
    | _ => exact wrong
  rw [step_input config waits, perform_command_notAssigned decoded other]

/-- Settles O12: both requests have one meaning. -/
theorem adminRefusedByName : Obligations.AdminRefusedByName := by
  rintro s inp rest config waits (rfl | rfl) <;> exact step_input config waits

/-! ## The lengths of command words -/

/-- `r` reads an instruction from bytes of the expected count, and refuses every other count. -/
def ReadsLength (bytes : List Byte) (expected : Nat) (r : Except DecodeError Instr) : Prop :=
  (bytes.length = expected → ∃ i, r = .ok i) ∧ (bytes.length ≠ expected → r = .error .badLength)

section Lengths

variable {args : List Byte}

theorem readsLength_ok {bytes : List Byte} {n : Nat} {i : Instr} (h : bytes.length = n) :
    ReadsLength bytes n (.ok i) := ⟨fun _ => ⟨i, rfl⟩, fun other => absurd h other⟩

theorem readsLength_error {bytes : List Byte} {n : Nat} (h : bytes.length ≠ n) :
    ReadsLength bytes n (.error .badLength) := ⟨fun same => absurd same h, fun _ => rfl⟩

/-- What is read behind an opcode is read of the whole word, which is one byte longer. -/
theorem readsLength_cons {n total : Nat} {r : Except DecodeError Instr} (h : ReadsLength args n r)
    (e : total = n + 1) (op : Byte) : ReadsLength (op :: args) total r := by
  subst e
  simpa only [ReadsLength, List.length_cons, Nat.add_right_cancel_iff, Ne] using h

theorem readsLength_counted (mk : List Byte → Instr) (args : List Byte) :
    ReadsLength args (2 + (u16 (args.getD 0 0) (args.getD 1 0)).toNat) (counted mk args) := by
  match args with
  | [] | [_] => exact readsLength_error (by simp only [List.length_nil, List.length_cons]; omega)
  | n1 :: n0 :: body =>
    rw [counted]
    split
    case isTrue count => exact readsLength_ok (by simp [count]; omega)
    case isFalse other => exact readsLength_error (by simp; omega)

theorem readsLength_encOperands (args : List Byte) :
    ReadsLength args (4 + (u16 (args.getD 2 0) (args.getD 3 0)).toNat) (encOperands args) := by
  match args with
  | [] | [_] => exact readsLength_error (by simp only [List.length_nil, List.length_cons]; omega)
  | c1 :: c0 :: rest =>
    exact readsLength_cons (readsLength_cons (readsLength_counted _ rest) rfl c0) (by simp; omega) c1

theorem readsLength_noOperand (i : Instr) (args : List Byte) : ReadsLength args 0 (noOperand i args) := by
  cases args with
  | nil => exact readsLength_ok rfl
  | cons b rest => exact readsLength_error (Nat.succ_ne_zero _)

theorem readsLength_oneOperand (mk : Byte → Instr) (args : List Byte) : ReadsLength args 1 (oneOperand mk args) := by
  match args with
  | [k] => exact readsLength_ok rfl
  | [] | _ :: _ :: _ => exact readsLength_error (by simp)

theorem readsLength_pevOperands (args : List Byte) : ReadsLength args 3 (pevOperands args) := by
  match args with
  | [k, prop, val] => exact readsLength_ok rfl
  | [] | [_] | [_, _] | _ :: _ :: _ :: _ :: _ => exact readsLength_error (by simp)

/-- A word of an assigned opcode is an operation exactly where its length is the one of its opcode and its count (R80). -/
theorem readsLength_decodeCommand {op : Byte} (assigned : op ∈ opcodes) (args : List Byte) :
    ReadsLength (op :: args) (commandLength (op :: args)) (decodeCommand (op :: args)) := by
  rcases mem_opcodes_iff.mp assigned with rfl | rfl | rfl | rfl | rfl | rfl | rfl | rfl | rfl | rfl | rfl
  · exact readsLength_cons (readsLength_encOperands args) (Nat.add_right_comm 4 1 _) 0x10
  · exact readsLength_cons (readsLength_counted .dec args) (Nat.add_right_comm 2 1 _) 0x11
  · exact readsLength_cons (readsLength_counted .rxc args) (Nat.add_right_comm 2 1 _) 0x20
  · exact readsLength_cons (readsLength_noOperand .bind args) rfl 0x30
  · exact readsLength_cons (readsLength_noOperand .close args) rfl 0x31
  · exact readsLength_cons (readsLength_pevOperands args) rfl 0x40
  · exact readsLength_cons (readsLength_oneOperand .ton args) rfl 0x41
  · exact readsLength_cons (readsLength_oneOperand .toff args) rfl 0x42
  · exact readsLength_cons (readsLength_noOperand .tick args) rfl 0x43
  · exact readsLength_cons (readsLength_oneOperand .texp args) rfl 0x44
  · exact readsLength_cons (readsLength_noOperand .reset args) rfl 0xFF

end Lengths

/-- Every switch of the configuration has its registers. -/
theorem length_sw {s : State} (inv : MachineInv s) : s.sw.length = s.cfg.nsw := inv.switches.length_eq.symm

/-- An operation on a switch that is not there is refused (R82). -/
theorem exec_missing {s : State} {k prop val : Byte} {i : Instr} (hi : i ∈ [.pev k prop val, .ton k, .toff k, .texp k])
    (missing : s.sw.length ≤ k.toNat) : exec i s = .next (afterRefusal .badInstance s) := by
  simp only [List.mem_cons, List.not_mem_nil, or_false] at hi
  rcases hi with rfl | rfl | rfl | rfl <;> exact withSwitch_none missing _

/-- Settles O6: the decoder refuses by opcode and length; an operation that decodes is refused by what it finds at k. -/
theorem commandWordsRefused : Obligations.CommandWordsRefused := by
  intro s a op args rest inv waits
  have performs := step_input inv.config waits
  have runs {i : Instr} (decoded : decodeCommand (op :: args) = .ok i) (agent : a = agentOf i) :
      step s = exec i { s with pending := rest } := by
    rw [performs, agent, perform_command_assigned decoded]
  have missing {k : Byte} (above : s.cfg.nsw ≤ k.toNat) : s.sw.length ≤ k.toNat := (length_sw inv).trans_le above
  refine ⟨fun unassigned => ?unassigned, fun assigned wrongLength => ?wrongLength,
    fun assigned => (readsLength_decodeCommand assigned args).1, ?pev, ?tonToff, ?texp, ?notEnabled⟩
  case unassigned =>
    exact performs.trans (perform_command_error (decodeCommand_unassigned unassigned args) a _)
  case wrongLength =>
    exact performs.trans (perform_command_error ((readsLength_decodeCommand assigned args).2 wrongLength) a _)
  case pev =>
    rintro k prop val rfl rfl agent above
    exact (runs rfl agent).trans (exec_missing (prop := prop) (val := val) (by simp) (missing above))
  case tonToff =>
    rintro k (rfl | rfl) rfl agent above <;>
      exact (runs rfl agent).trans (exec_missing (prop := 0) (val := 0) (by simp) (missing above))
  case texp =>
    rintro k rfl rfl agent above
    exact (runs rfl agent).trans (exec_missing (prop := 0) (val := 0) (by simp) (missing above))
  case notEnabled =>
    rintro k w rfl rfl agent hw notEnabled
    exact (runs rfl agent).trans (exec_texp_notEnabled hw (mt (texpEnabled_iff w).mp notEnabled))

/-! ## The configuration -/

theorem mode_ne_reserved_iff (m : Mode) : m ≠ .reserved ↔ m = .direct ∨ m = .toggle ∨ m = .momentary := by
  cases m <;> decide

theorem cfgInitOk_iff (x : CfgInit) : cfgInitOk x = true ↔
    (x.mode = .direct ∨ x.mode = .toggle ∨ x.mode = .momentary) ∧ x.revertDelay < 2 ^ 16 := by
  rw [cfgInitOk, Bool.and_eq_true, decide_eq_true_eq, decide_eq_true_eq, mode_ne_reserved_iff]

theorem surplusPolicy_cases (p : SurplusPolicy) : p = .reject ∨ p = .ignore := by cases p <;> decide

/-- The conditions of R231, of which that on the surplus policy always holds. -/
theorem configOk_iff (c : Config) : configOk c = true ↔
    c.nsw ≤ 256 ∧ 1 ≤ c.bufCap ∧ (c.surplus = .reject ∨ c.surplus = .ignore) ∧
      (∀ x ∈ c.cfgInit, (x.mode = .direct ∨ x.mode = .toggle ∨ x.mode = .momentary) ∧ x.revertDelay < 2 ^ 16) ∧
      valPresence ∈ c.actSet ∧ valOn ∈ c.actSet ∧
      valClosed ∈ c.invActSet ∧ valOff ∈ c.invActSet ∧ valOpen ∉ c.invActSet := by
  simp only [configOk, Bool.and_eq_true, decide_eq_true_eq, List.all_eq_true, cfgInitOk_iff, surplusPolicy_cases, true_and,
    and_assoc]

theorem nsw_le {c : Config} (h : configOk c = true) : c.nsw ≤ 256 := ((configOk_iff c).mp h).1

/-- Settles O10: the check of a step is the conditions of the rule; in the reserved mode a watched event has no meaning. -/
theorem illFormedConfigHasNoRun : Obligations.IllFormedConfigHasNoRun := by
  refine ⟨fun s => ⟨fun ill => ?_, fun good => ?_⟩, fun k val w s hw reserved => ?_⟩
  · exact if_neg (mt (configOk_iff s.cfg).mp ill)
  · exact if_pos ((configOk_iff s.cfg).mpr good)
  · rw [exec_pev_watched hw, watchedEvent, track_mode, reserved]

/-! ## The timers -/

section Timers

variable {s t : State} {k : Byte} {w : Switch}

theorem step_idle (config : configOk s.cfg = true) (idle : s.pending = []) : step s = timersTurn s := by
  rw [step, if_pos config, takeTurn, idle]

/-- The number of a switch fits the operand k (R231: at most 256 switches). -/
theorem toNat_switch (inv : MachineInv s) {j : Nat} (hw : s.sw[j]? = some w) : (BitVec.ofNat 8 j).toNat = j := by
  obtain ⟨inRange, -⟩ := List.getElem?_eq_some_iff.mp hw
  have count := length_sw inv
  have most := nsw_le inv.config
  rw [BitVec.toNat_ofNat]
  omega

/-- Settles O13: the turn of the timers is an enabled TEXP where there is one. -/
theorem timersActWhenNothingWaits : Obligations.TimersActWhenNothingWaits := by
  intro s inv idle
  rw [step_idle inv.config idle]
  rcases timersTurn_cases s with ⟨ended, e⟩ | ⟨j, enabled, e⟩
  · exact ⟨fun _ => e, fun notEnded => absurd ended notEnded⟩
  · obtain ⟨w, hw, armed, due⟩ := mem_enabledTimers.mp enabled
    refine ⟨fun ended => absurd enabled (ended ▸ List.not_mem_nil), fun _ => ⟨BitVec.ofNat 8 j, w, ?_, armed, due, e⟩⟩
    rwa [toNat_switch inv hw]

/-- Where a timer is enabled and nothing else waits, the step reverts one such switch (R244, R168). -/
theorem step_reverts (inv : MachineInv s) (idle : s.pending = []) (notEnded : ¬runEnded s) :
    ∃ (k : Byte) (w : Switch), s.sw[k.toNat]? = some w ∧ k.toNat ∈ enabledTimers s ∧
      step s = .next (afterAssign k w.on (offSwitch w) { s with turn := s.turn + 1 }) := by
  obtain ⟨-, acts⟩ := timersActWhenNothingWaits s inv idle
  obtain ⟨k, w, hw, armed, due, e⟩ := acts notEnded
  refine ⟨k, w, hw, mem_enabledTimers.mpr ⟨w, hw, armed, due⟩, ?_⟩
  have hw' : ({ s with turn := s.turn + 1 } : State).sw[k.toNat]? = some w := hw
  rw [e, exec_texp_enabled hw' ((texpEnabled_iff w).mpr ⟨armed, due⟩), exec_toff hw']

/-- Of the enabled timers exactly the one of switch k is not enabled any more when that switch is turned off. -/
theorem mem_enabledTimers_of_off (h : t.sw = s.sw.set k.toNat (offSwitch w)) {j : Nat} :
    j ∈ enabledTimers t ↔ j ≠ k.toNat ∧ j ∈ enabledTimers s := by
  rw [mem_enabledTimers, mem_enabledTimers, h]
  by_cases same : j = k.toNat
  · subst same
    simp [List.getElem?_set, offSwitch]
  · rw [List.getElem?_set_ne (Ne.symm same)]
    exact (and_iff_right same).symm

theorem nodup_enabledTimers (s : State) : (enabledTimers s).Nodup := List.nodup_range.filter _

theorem length_enabledTimers_of_off (h : t.sw = s.sw.set k.toNat (offSwitch w)) (enabled : k.toNat ∈ enabledTimers s) :
    (enabledTimers t).length + 1 = (enabledTimers s).length := by
  have perm : (enabledTimers t).Perm ((enabledTimers s).erase k.toNat) :=
    (List.perm_ext_iff_of_nodup (nodup_enabledTimers t) ((nodup_enabledTimers s).erase _)).mpr fun j => by
      rw [mem_enabledTimers_of_off h, (nodup_enabledTimers s).mem_erase_iff]
  rw [perm.length_eq, List.length_erase_add_one enabled]

/-- In `t` the run has ended, and since `s` the switches with an enabled timer were turned off and nothing else was done that
the rules name. -/
structure TimersFired (s t : State) : Prop where
  ended    : runEnded t
  fired    : ∀ k ∈ enabledTimers s, t.sw[k]? = (s.sw[k]?).map offSwitch
  others   : ∀ k : Nat, k ∉ enabledTimers s → t.sw[k]? = s.sw[k]?
  cfg      : t.cfg = s.cfg
  conn     : t.conn = s.conn
  rxbuf    : t.rxbuf = s.rxbuf
  txstream : t.txstream = s.txstream
  refused  : t.refused = s.refused

theorem timersFired_self (ended : enabledTimers s = []) : TimersFired s s where
  ended := ended
  fired _ hk := absurd hk (ended ▸ List.not_mem_nil)
  others _ _ := rfl
  cfg := rfl
  conn := rfl
  rxbuf := rfl
  txstream := rfl
  refused := rfl

/-- Switch k reverts first and the others after it. -/
theorem timersFired_of_first {old : Bool} {turn : Nat} (hw : s.sw[k.toNat]? = some w) (enabled : k.toNat ∈ enabledTimers s)
    (rest : TimersFired (afterAssign k old (offSwitch w) { s with turn := turn }) t) : TimersFired s t := by
  obtain ⟨ended, fired, others, cfg, conn, rxbuf, txstream, refused⟩ := rest
  have mem_rest {j : Nat} : j ∈ enabledTimers (afterAssign k old (offSwitch w) { s with turn := turn }) ↔
      j ≠ k.toNat ∧ j ∈ enabledTimers s := mem_enabledTimers_of_off rfl
  have kept {j : Nat} (h : j ≠ k.toNat) : (s.sw.set k.toNat (offSwitch w))[j]? = s.sw[j]? :=
    List.getElem?_set_ne h.symm
  refine ⟨ended, fun j hj => ?_, fun j hj => ?_, cfg, conn, rxbuf, txstream, refused⟩
  · by_cases first : j = k.toNat
    · rw [others j fun h => (mem_rest.mp h).1 first, first, hw, Option.map_some]
      exact getElem?_afterAssign (s := { s with turn := turn }) hw old (offSwitch w)
    · rw [fired j (mem_rest.mpr ⟨first, hj⟩), ← kept first]
      rfl
  · have notFirst : j ≠ k.toNat := fun h => hj (h ▸ enabled)
    rw [others j fun h => hj (mem_rest.mp h).2]
    exact kept notFirst

theorem run_succ (h : step s = .next t) (n : Nat) : core.run (n + 1) s = core.run n t := by
  have first : core.step s = .next t := h
  simp only [Host.Core.run, first]

theorem run_timers {n : Nat} (inv : MachineInv s) (idle : s.pending = []) (count : (enabledTimers s).length = n) :
    ∃ t, core.run n s = .next t ∧ TimersFired s t := by
  induction n generalizing s with
  | zero => exact ⟨s, rfl, timersFired_self (List.length_eq_zero_iff.mp count)⟩
  | succ n ih =>
    have notEnded : ¬runEnded s := fun ended => by simp [show enabledTimers s = [] from ended] at count
    obtain ⟨k, w, hw, enabled, first⟩ := step_reverts inv idle notEnded
    have left := length_enabledTimers_of_off (s := s)
      (t := afterAssign k w.on (offSwitch w) { s with turn := s.turn + 1 }) rfl enabled
    obtain ⟨t, run, rest⟩ := ih (machineInv_step inv first) idle (by omega)
    exact ⟨t, (run_succ first n).trans run, timersFired_of_first hw enabled rest⟩

end Timers

/-- Settles O60: by induction on the number of enabled timers; each step reverts one of them, whichever it is. -/
theorem enabledTimersAllFire : Obligations.EnabledTimersAllFire := by
  intro s inv idle
  obtain ⟨t, run, ended, fired, others, cfg, conn, rxbuf, txstream, refused⟩ := run_timers inv idle rfl
  exact ⟨t, run, ended, fired, others, cfg, conn, rxbuf, txstream, refused⟩

end Sys2Proof.Machine
end


section
/-! SUPPORT. Reception of the units of the wire (30_encoding.md R76): one by one they do what RXC does with their bytes, and what
each does to the buffer. -/

namespace Sys2Proof.Machine

/-- Settles O26: every receiving operation is `receive` of its bytes, whose effect `receive_frame` bounds. -/
theorem receiveFrame : Obligations.ReceiveFrame := by
  intro i s hi
  obtain ⟨bytes, run⟩ := exec_receive hi s
  obtain ⟨buf, evs, conn, e, closes⟩ := receive_frame bytes s
  refine ⟨_, run, ?_⟩
  rw [e]
  exact ⟨rfl, rfl, rfl, rfl, rfl, rfl, rfl, List.prefix_append _ _, closes⟩

theorem execAll_wireUnits (bytes : List Byte) (s : State) : execAll (wireUnits bytes) s = .next (receive bytes s) := by
  induction bytes using wireUnits.induct generalizing s with
  | case1 => rfl
  | case2 b =>
    rw [wireUnits, execAll_cons (exec_wire (portOf_wireUnit b) s), encode_wireUnit]
    rfl
  | case3 b c rest pair ih =>
    obtain ⟨rfl, -⟩ := escPair_eq_true_iff.mp pair
    rw [wireUnits, if_pos pair, execAll_cons (exec_wire (portOf_escUnit c) s), ih, encode_escUnit, ← receive_append]
    rfl
  | case4 b c rest alone ih =>
    rw [wireUnits, if_neg alone, execAll_cons (exec_wire (portOf_wireUnit b) s), ih, encode_wireUnit, ← receive_append]
    rfl

/-- Settles O32: by the recursion of `wireUnits`; the bytes of a unit stand at the head of the stream. -/
theorem wireUnitsAreReceived : Obligations.WireUnitsAreReceived := execAll_wireUnits

/-! ## The results of the units -/

/-- Only the end marker's own unit holds an end marker. -/
theorem endMarker_notMem_encode {u : Instr} (wf : wellFormed u = true) (port : portOf u = .wire) (notEnd : u ≠ .wireEnd) :
    endMarker ∉ encode u := by
  have single {b : Byte} (hb : b ≠ endMarker) : endMarker ∉ [b] :=
    List.not_mem_cons_of_ne_of_not_mem hb.symm List.not_mem_nil
  have pair {c : Byte} (hc : c ≠ endMarker) : endMarker ∉ [escMarker, c] :=
    List.not_mem_cons_of_ne_of_not_mem (by decide) (single hc)
  cases u with
  | wireStart => decide
  | wireEsc next =>
    cases next with
    | none => decide
    | some c =>
      obtain ⟨-, -, hc⟩ := isNonCanon_iff.mp wf
      exact pair hc
  | wireEnd => exact absurd rfl notEnd
  | wireEscapedPair e =>
    obtain ⟨-, -, he⟩ := ne_markers_of_high (isEscaped_iff.mp wf).1
    exact pair he
  | wireLiteral b =>
    obtain ⟨-, -, hb⟩ := ne_markers_of_high (of_decide_eq_true wf)
    exact single hb
  | wireRawLow b =>
    obtain ⟨-, -, -, hb⟩ := wellFormed_wireRawLow_iff.mp wf
    exact single hb
  | enc _ _ | dec _ | rxc _ | bind | close | pev _ _ _ | ton _ | toff _ | tick | texp _ | reset => cases port

/-- Bytes that hold no end marker and do not fit overflow the buffer, at the first byte for which there is no room (R133). -/
theorem receive_tooLong {stream : List Byte} {s : State} (h : s.conn ≠ .closed) (noEnd : endMarker ∉ stream)
    (within : s.rxbuf.length ≤ s.cfg.bufCap) (tooLong : s.cfg.bufCap < s.rxbuf.length + stream.length) :
    receive stream s =
      { s with rxbuf := [], conn := .closed, ev := s.ev ++ [.err (.framingOverflow s.cfg.bufCap)] } := by
  obtain ⟨before, b, rest, rfl, fills⟩ : ∃ before b rest, stream = before ++ b :: rest ∧
      s.rxbuf.length + before.length = s.cfg.bufCap := by
    have room : s.cfg.bufCap - s.rxbuf.length < stream.length := by omega
    refine ⟨stream.take (s.cfg.bufCap - s.rxbuf.length), stream[s.cfg.bufCap - s.rxbuf.length],
      stream.drop (s.cfg.bufCap - s.rxbuf.length + 1), ?_, ?_⟩
    · rw [← List.drop_eq_getElem_cons room, List.take_append_drop]
    · rw [List.length_take]
      omega
  simp only [List.mem_append, List.mem_cons, not_or] at noEnd
  obtain ⟨noEndBefore, hb, -⟩ := noEnd
  obtain ⟨-, overflows⟩ := unterminatedStreamOverflows before rest b s h noEndBefore (Ne.symm hb)
  exact Host.Outcome.next.inj (overflows fills)

/-- Settles O33: a unit is received as its bytes, which are stored or overflow, or are the end marker. -/
theorem wireUnitResults : Obligations.WireUnitResults := by
  intro u s wf port
  have run := exec_wire port s
  refine ⟨fun closed => ?closed, fun h => ⟨fun notEnd room => ?fits, fun notEnd within tooLong => ?tooLong, ?frame, ?noise⟩⟩
  case closed => rw [run, receive_closed closed]
  case fits => rw [run, receive_fits h (endMarker_notMem_encode wf port notEnd) room]
  case tooLong => rw [run, receive_tooLong h (endMarker_notMem_encode wf port notEnd) within tooLong]
  case frame =>
    rintro rfl noise span hr hspan
    exact run.trans (congrArg Host.Outcome.next ((receive_cons h endMarker []).trans (pushByte_end_some hr hspan)))
  case noise =>
    rintro rfl noise
    exact run.trans (congrArg Host.Outcome.next ((receive_cons h endMarker []).trans (pushByte_end_none noise)))

end Sys2Proof.Machine
end


section
/-! SUPPORT. The register view (10_state.md R34): the value of each register as a number, the numbers that have none, and a read
as an input. -/

namespace Sys2Proof.Machine

/-! ## Registers as numbers -/

theorem toNat_append_eq {m n : Nat} (x : BitVec m) (y : BitVec n) : (x ++ y).toNat = 2 ^ n * x.toNat + y.toNat := by
  rw [BitVec.toNat_append, ← Nat.shiftLeft_add_eq_or_of_lt y.isLt, Nat.shiftLeft_eq, Nat.mul_comm]

theorem toNat_surplusBit (p : SurplusPolicy) : (surplusBit p).toNat = if p = .ignore then 1 else 0 := by
  cases p <;> rfl

section SwitchRegisters

variable (w : Switch)

theorem toNat_regSwCfg : (regSwCfg w).toNat =
    (modeBits w.mode).toNat + 4 * w.inverted.toNat + 8 * w.initOn.toNat + 256 * w.watchedProp.toNat := by
  simp only [regSwCfg, toNat_append_eq, BitVec.toNat_ofBool, BitVec.toNat_ofNat]
  omega

theorem toNat_regSwDelay : (regSwDelay w).toNat = w.revertDelay.toNat := by
  simp only [regSwDelay, toNat_append_eq, BitVec.toNat_ofNat]
  omega

theorem toNat_regSwStatus : (regSwStatus w).toNat =
    w.on.toNat + 2 * w.tmrArmed.toNat + 4 * w.trackedValid.toNat + 256 * w.trackedValue.toNat := by
  simp only [regSwStatus, toNat_append_eq, BitVec.toNat_ofBool, BitVec.toNat_ofNat]
  omega

theorem toNat_regSwTimer : (regSwTimer w).toNat = w.tmrRemain.toNat := by
  simp only [regSwTimer, toNat_append_eq, BitVec.toNat_ofNat]
  omega

end SwitchRegisters

section View

variable {s : State} {num : Nat}

theorem toNat_regConnStatus (s : State) : (regConnStatus s).toNat = (connBits s.conn).toNat := by
  simp only [regConnStatus, toNat_append_eq, BitVec.toNat_ofNat]
  omega

theorem toNat_regRxbufLen (fits : s.rxbuf.length < 2 ^ 32) : (regRxbufLen s).toNat = s.rxbuf.length := by
  rw [regRxbufLen, if_pos fits, BitVec.toNat_ofNat, Nat.mod_eq_of_lt fits]

/-- At most 256 switches leave `NSW` − 1 in its 8 bits (R231). -/
theorem toNat_regCfgGlobal (inv : MachineInv s) : (regCfgGlobal s).toNat =
    (if s.cfg.surplus = .ignore then 1 else 0) + 2 * s.cfg.renotify.toNat + 256 * (s.cfg.nsw - 1) := by
  have most := nsw_le inv.config
  simp only [regCfgGlobal, toNat_append_eq, BitVec.toNat_ofBool, BitVec.toNat_ofNat, toNat_surplusBit]
  omega

theorem toNat_regBufCap (s : State) : (regBufCap s).toNat = min s.cfg.bufCap (2 ^ 32 - 1) := by
  rw [regBufCap, BitVec.toNat_ofNat]
  omega

/-! ## The numbers of the view -/

/-- The registers of switch k stand at their offsets from 0x100 + 4k. -/
theorem reads_switch {k : Nat} {w : Switch} (hw : s.sw[k]? = some w) (off : Nat) (hoff : off < 4) :
    Reads (0x100 + off + 4 * k) s (switchRegister off w) :=
  (reads_switch_iff off hoff).mpr ⟨w, hw, rfl⟩

theorem regView_gap (low : 3 < num) (high : num < 0x100) : regView num s = none := by
  rw [regView, if_neg (by omega), if_neg (by omega), if_neg (by omega), if_neg (by omega), if_pos high]

theorem regView_beyond (h : 0x100 + 4 * s.sw.length ≤ num) : regView num s = none := by
  have noSwitch : s.sw[(num - 0x100) / 4]? = none := List.getElem?_eq_none (by omega)
  rw [regView, if_neg (by omega), if_neg (by omega), if_neg (by omega), if_neg (by omega), if_neg (by omega), noSwitch,
    Option.map_none]

/-! ## Reads -/

theorem readRegister_some (h : (regView num s).isSome = true) : readRegister num s = s := by
  obtain ⟨v, hv⟩ := Option.isSome_iff_exists.mp h
  rw [readRegister, hv]

theorem readRegister_none (h : regView num s = none) : readRegister num s = afterRefusal .badRegister s := by
  rw [readRegister, h]
  exact refuse_eq _ _

end View

/-- Settles O54: each register by its fields, the other numbers by the two gaps, and a read by whether there is a value. -/
theorem registerViewReads : Obligations.RegisterViewReads := by
  intro s inv
  refine ⟨⟨regConnStatus s, rfl, ?_⟩, ⟨regRxbufLen s, rfl, toNat_regRxbufLen⟩,
    ⟨regCfgGlobal s, rfl, toNat_regCfgGlobal inv⟩, ⟨regBufCap s, rfl, toNat_regBufCap s⟩,
    fun k w hw => ⟨⟨regSwCfg w, reads_switch hw 0 (by decide), ?cfg⟩,
      ⟨regSwDelay w, reads_switch hw 1 (by decide), toNat_regSwDelay w⟩,
      ⟨regSwStatus w, reads_switch hw 2 (by decide), toNat_regSwStatus w⟩,
      ⟨regSwTimer w, reads_switch hw 3 (by decide), toNat_regSwTimer w⟩⟩,
    fun num unlisted => ?_, fun num rest waits => ⟨fun listed => ?_, fun unlisted => ?_⟩⟩
  · rw [toNat_regConnStatus]
    exact ⟨fun h => by rw [h]; rfl, fun h => by rw [h]; rfl, fun h => by rw [h]; rfl⟩
  case cfg =>
    rw [toNat_regSwCfg]
    cases w.mode <;> rfl
  · rcases unlisted with ⟨low, high⟩ | beyond
    · exact regView_gap low high
    · exact regView_beyond ((length_sw inv).symm ▸ beyond)
  · rw [step_input inv.config waits]
    exact congrArg Host.Outcome.next (readRegister_some (s := { s with pending := rest }) listed)
  · rw [step_input inv.config waits]
    exact congrArg Host.Outcome.next (readRegister_none (s := { s with pending := rest }) unlisted)

end Sys2Proof.Machine
end
